-- ==== Sys2Proof/Word.lean ====
section
/-! DEFINITION. The words of OSCQ: what the spec treats as bits, each at the width the spec gives it
(00_scope.md R6, R7). Bit 0 is the least significant bit. -/

namespace Sys2Proof

/-- A 32-bit slot word: `FREQ`, `PHASE`, `DUTY`, `COUNT`, `XIN`, the data of a transaction and a
command word (00_scope.md R6, `PHASE_BITS`, `DATA_BITS`, `COUNT_BITS`). -/
abbrev Word := BitVec 32

/-- A 16-bit sample, two's complement (00_scope.md R6, `SAMPLE_BITS`; log 6). -/
abbrev Sample := BitVec 16

/-- A 4-bit slot index (00_scope.md R6, `IDX_BITS`). -/
abbrev SlotIndex := BitVec 4

/-- The 37-bit transaction word `TW[36:0]` (30_encoding.md R90). -/
abbrev TransactionWord := BitVec 37

end Sys2Proof
end

