-- ==== Sys2Proof/Syntax.lean ====
section
/-! DEFINITION. The syntax: the slots, the error causes, the 20 operations of `OSCQ-1` (30_encoding.md R95, R96,
one constructor per row of spec/opcode_table.json), the events a host presents to the block, and the assembler
notation with its pseudo-instructions and directives (R101, R102). -/

namespace Sys2Proof

/-- The eight assigned register slots (10_state.md R32). -/
inductive Slot where
  | freq | phase | duty | count | xin | cmd | sample | status
deriving DecidableEq, Repr

/-- The three causes of an error (60_exceptions.md R201). -/
inductive Cause where
  /-- `Overrun`: a legal oscillator command while `COUNT` is 0. -/
  | overrun
  /-- `IllCmd`: a write to slot 5 whose command word is not a legal one. -/
  | illCmd
  /-- `AddrErr`: an access that the slot map does not allow. -/
  | addrErr
deriving DecidableEq, Repr

/-- The operations of `OSCQ-1`, one constructor per row of spec/opcode_table.json. The data of a read is ignored
(30_encoding.md R91), so a read carries no operand. -/
inductive Instr where
  /-- `RD.FREQ` (40_register_access.md R126). -/
  | rdFreq
  /-- `RD.PHASE` (R127). -/
  | rdPhase
  /-- `RD.DUTY` (R128). -/
  | rdDuty
  /-- `RD.COUNT` (R129). -/
  | rdCount
  /-- `RD.XIN` (R130). -/
  | rdXin
  /-- `RD.SAMPLE` (R131). -/
  | rdSample
  /-- `RD.STATUS` (R132). -/
  | rdStatus
  /-- `WR.FREQ` (R121). -/
  | wrFreq (data : Word)
  /-- `WR.PHASE` (R122). -/
  | wrPhase (data : Word)
  /-- `WR.DUTY` (R123). -/
  | wrDuty (data : Word)
  /-- `WR.COUNT` (R124). -/
  | wrCount (data : Word)
  /-- `WR.XIN` (R125). -/
  | wrXin (data : Word)
  /-- `NOP` (43_control.md R190). -/
  | nop
  /-- `SINE` (41_oscillator.md R151). -/
  | sine
  /-- `RAMP` (41_oscillator.md R153). -/
  | ramp
  /-- `TRI` (41_oscillator.md R155). -/
  | tri
  /-- `PWM` (41_oscillator.md R162). -/
  | pwm
  /-- `QX` (42_quantizer.md R177). -/
  | qx
  /-- `PASS imm16` (42_quantizer.md R178). -/
  | pass (imm16 : Sample)
  /-- `RESET` (43_control.md R191). -/
  | reset
deriving DecidableEq, Repr

/-- What the host can do to the block, one at a time (00_scope.md R5): present a transaction word (30_encoding.md
R90), or assert the hardware reset input between two transactions (70_reset_and_hazards.md R230). -/
inductive HostEvent where
  /-- One read or write transaction. -/
  | transaction (tw : TransactionWord)
  /-- The hardware reset input `rst`; not a transaction (70_reset_and_hazards.md R232). -/
  | rst
deriving DecidableEq, Repr

/-- One line of the assembler notation (30_encoding.md R101). A number is an integer; a negative one stands for
its two's complement word. -/
inductive AsmLine where
  | wr (reg : Slot) (value : Int)
  | rd (reg : Slot)
  | nop
  | sine
  | ramp
  | tri
  | pwm
  | qx
  | pass (imm16 : Int)
  | reset
  /-- `RAW rw, idx, data32`: any transaction word. -/
  | raw (rw idx : Nat) (data : Int)
deriving DecidableEq, Repr

/-- A host program: assembler lines, the pseudo-instructions and the directives of 30_encoding.md R102. -/
inductive HostProgram where
  /-- No transaction. -/
  | skip
  | line (l : AsmLine)
  | seq (first second : HostProgram)
  /-- `RESTART` -/
  | restart
  /-- `TONE fcw, n` -/
  | tone (fcw n : Int)
  /-- `QUANT x32` -/
  | quant (x : Int)
  /-- `.rep n { body }` -/
  | rep (n : Nat) (body : HostProgram)
  /-- `.until_done { body }` -/
  | untilDone (body : HostProgram)
deriving DecidableEq, Repr

end Sys2Proof
end

