-- ==== Sys2Proof/Decode.lean ====
section
/-! DEFINITION. The decoder, total on all 2^37 transaction words (30_encoding.md R97), the encoder written from the
same tables (R90 to R96), and the opcode table itself as data (R95, R96). -/

namespace Sys2Proof

/-! ## The transaction word (30_encoding.md R90, R93) -/

/-- `TW[36]`: true for a write, false for a read. -/
def rwOf (tw : TransactionWord) : Bool := tw.getLsbD 36

/-- `TW[35:32]`, the slot index. -/
def idxOf (tw : TransactionWord) : SlotIndex := tw.extractLsb' 32 4

/-- `TW[31:0]`, the data. -/
def dataOf (tw : TransactionWord) : Word := tw.extractLsb' 0 32

/-- A transaction word from its three fields. -/
def transactionWord (rw : Bool) (idx : SlotIndex) (data : Word) : TransactionWord :=
  BitVec.ofBool rw ++ idx ++ data

/-- `CW[31:16]`, the immediate of a command word. -/
def imm16Of (cw : Word) : Sample := cw.extractLsb' 16 16

/-- `CW[15:8]`, which must be 0. -/
def zeroOf (cw : Word) : BitVec 8 := cw.extractLsb' 8 8

/-- `CW[7:0]`, the command code. -/
def opOf (cw : Word) : BitVec 8 := cw.extractLsb' 0 8

/-- The command word of an immediate and a code, its `zero` field 0 (30_encoding.md R93). -/
def commandWord (imm16 : Sample) (op : BitVec 8) : Word := imm16 ++ 0#8 ++ op

/-! ## Slots (10_state.md R32) -/

/-- The slot of an index; the indices 8 to 15 are reserved. -/
def Slot.ofIndex (idx : SlotIndex) : Option Slot :=
  match idx.toNat with
  | 0 => some .freq
  | 1 => some .phase
  | 2 => some .duty
  | 3 => some .count
  | 4 => some .xin
  | 5 => some .cmd
  | 6 => some .sample
  | 7 => some .status
  | _ => none

/-- The index of a slot. -/
def Slot.index : Slot → SlotIndex
  | .freq => 0
  | .phase => 1
  | .duty => 2
  | .count => 3
  | .xin => 4
  | .cmd => 5
  | .sample => 6
  | .status => 7

/-! ## The decoder (30_encoding.md R97) -/

/-- What a transaction word is: one of the 20 operations, or one of the two errors the decoder yields. -/
inductive Decoded where
  | instr (i : Instr)
  | illegal (c : Cause)
deriving DecidableEq, Repr

/-- A read of a slot (30_encoding.md R97); `CMD` is write only. -/
def decodeRead : Slot → Decoded
  | .freq => .instr .rdFreq
  | .phase => .instr .rdPhase
  | .duty => .instr .rdDuty
  | .count => .instr .rdCount
  | .xin => .instr .rdXin
  | .cmd => .illegal .addrErr
  | .sample => .instr .rdSample
  | .status => .instr .rdStatus

/-- `decode_cmd` of 30_encoding.md R97: the three checks, then the command with the code. -/
def decodeCommand (cw : Word) : Decoded :=
  if zeroOf cw ≠ 0 then .illegal .illCmd
  else if opOf cw ≠ 6 ∧ imm16Of cw ≠ 0 then .illegal .illCmd
  else
    match (opOf cw).toNat with
    | 0 => .instr .nop
    | 1 => .instr .sine
    | 2 => .instr .ramp
    | 3 => .instr .tri
    | 4 => .instr .pwm
    | 5 => .instr .qx
    | 6 => .instr (.pass (imm16Of cw))
    | 7 => .instr .reset
    | _ => .illegal .illCmd

/-- A write to a slot (30_encoding.md R97); `SAMPLE` and `STATUS` are read only, `CMD` takes a command word. -/
def decodeWrite (d : Word) : Slot → Decoded
  | .freq => .instr (.wrFreq d)
  | .phase => .instr (.wrPhase d)
  | .duty => .instr (.wrDuty d)
  | .count => .instr (.wrCount d)
  | .xin => .instr (.wrXin d)
  | .cmd => decodeCommand d
  | .sample => .illegal .addrErr
  | .status => .illegal .addrErr

/-- The decoder, total on all transaction words (30_encoding.md R97). -/
def decode (tw : TransactionWord) : Decoded :=
  match Slot.ofIndex (idxOf tw) with
  | none => .illegal .addrErr
  | some slot => if rwOf tw then decodeWrite (dataOf tw) slot else decodeRead slot

/-! ## The encoder (30_encoding.md R91 to R93, R95, R96) -/

/-- A read of a slot; the ignored data is written as 0 (log 9). -/
def encodeRead (slot : Slot) : TransactionWord := transactionWord false slot.index 0

/-- A write of a slot. -/
def encodeWrite (slot : Slot) (d : Word) : TransactionWord := transactionWord true slot.index d

/-- A command: a write of its command word to `CMD`. -/
def encodeCommand (imm16 : Sample) (op : BitVec 8) : TransactionWord := encodeWrite .cmd (commandWord imm16 op)

/-- The transaction word of an operation. -/
def encode : Instr → TransactionWord
  | .rdFreq => encodeRead .freq
  | .rdPhase => encodeRead .phase
  | .rdDuty => encodeRead .duty
  | .rdCount => encodeRead .count
  | .rdXin => encodeRead .xin
  | .rdSample => encodeRead .sample
  | .rdStatus => encodeRead .status
  | .wrFreq d => encodeWrite .freq d
  | .wrPhase d => encodeWrite .phase d
  | .wrDuty d => encodeWrite .duty d
  | .wrCount d => encodeWrite .count d
  | .wrXin d => encodeWrite .xin d
  | .nop => encodeCommand 0 0
  | .sine => encodeCommand 0 1
  | .ramp => encodeCommand 0 2
  | .tri => encodeCommand 0 3
  | .pwm => encodeCommand 0 4
  | .qx => encodeCommand 0 5
  | .pass imm16 => encodeCommand imm16 6
  | .reset => encodeCommand 0 7

/-! ## The opcode table as data (30_encoding.md R95, R96, R103) -/

/-- One row of the opcode table: a transaction word `tw` selects it when `tw &&& mask = pattern`. -/
structure OpcodeRow where
  mnemonic : String
  pattern : TransactionWord
  mask : TransactionWord
deriving DecidableEq, Repr

/-- `TW & mask = match` (30_encoding.md R95). -/
abbrev OpcodeRow.selects (row : OpcodeRow) (tw : TransactionWord) : Prop := tw &&& row.mask = row.pattern

/-- The row of an operation, its numbers copied from the tables of 30_encoding.md R95 and R96. -/
def Instr.row : Instr → OpcodeRow
  | .rdFreq => ⟨"RD.FREQ", 0x0000000000, 0x1F00000000⟩
  | .rdPhase => ⟨"RD.PHASE", 0x0100000000, 0x1F00000000⟩
  | .rdDuty => ⟨"RD.DUTY", 0x0200000000, 0x1F00000000⟩
  | .rdCount => ⟨"RD.COUNT", 0x0300000000, 0x1F00000000⟩
  | .rdXin => ⟨"RD.XIN", 0x0400000000, 0x1F00000000⟩
  | .rdSample => ⟨"RD.SAMPLE", 0x0600000000, 0x1F00000000⟩
  | .rdStatus => ⟨"RD.STATUS", 0x0700000000, 0x1F00000000⟩
  | .wrFreq _ => ⟨"WR.FREQ", 0x1000000000, 0x1F00000000⟩
  | .wrPhase _ => ⟨"WR.PHASE", 0x1100000000, 0x1F00000000⟩
  | .wrDuty _ => ⟨"WR.DUTY", 0x1200000000, 0x1F00000000⟩
  | .wrCount _ => ⟨"WR.COUNT", 0x1300000000, 0x1F00000000⟩
  | .wrXin _ => ⟨"WR.XIN", 0x1400000000, 0x1F00000000⟩
  | .nop => ⟨"NOP", 0x1500000000, 0x1FFFFFFFFF⟩
  | .sine => ⟨"SINE", 0x1500000001, 0x1FFFFFFFFF⟩
  | .ramp => ⟨"RAMP", 0x1500000002, 0x1FFFFFFFFF⟩
  | .tri => ⟨"TRI", 0x1500000003, 0x1FFFFFFFFF⟩
  | .pwm => ⟨"PWM", 0x1500000004, 0x1FFFFFFFFF⟩
  | .qx => ⟨"QX", 0x1500000005, 0x1FFFFFFFFF⟩
  | .pass _ => ⟨"PASS", 0x1500000006, 0x1F0000FFFF⟩
  | .reset => ⟨"RESET", 0x1500000007, 0x1FFFFFFFFF⟩

/-- The 20 rows of spec/opcode_table.json, in its order (30_encoding.md R103). -/
def opcodeRows : List OpcodeRow :=
  [Instr.rdFreq.row, Instr.rdPhase.row, Instr.rdDuty.row, Instr.rdCount.row, Instr.rdXin.row, Instr.rdSample.row,
   Instr.rdStatus.row, (Instr.wrFreq 0).row, (Instr.wrPhase 0).row, (Instr.wrDuty 0).row, (Instr.wrCount 0).row,
   (Instr.wrXin 0).row, Instr.nop.row, Instr.sine.row, Instr.ramp.row, Instr.tri.row, Instr.pwm.row, Instr.qx.row,
   (Instr.pass 0).row, Instr.reset.row]

/-! ## Words numbered as the opcode table numbers them -/

/-- The transaction word that `nbits` table bits stand for: the table gives a row one word of 37 bits, bit 0 its
least significant bit, and in whole bytes the three bits above `TW[36]` are no bits of it, so a number that sets
one of them stands for no transaction (log 8). -/
def tableWord (nbits w : Nat) : Option TransactionWord :=
  if w % 2 ^ nbits < 2 ^ 37 then some (BitVec.ofNat 37 (w % 2 ^ nbits)) else none

/-- The instruction that the decoder reads from a word numbered as spec/opcode_table.json numbers it. -/
def decodeTableWord (nbits w : Nat) : Option Instr :=
  match tableWord nbits w with
  | none => none
  | some tw =>
    match decode tw with
    | .instr i => some i
    | .illegal _ => none

end Sys2Proof
end

