-- ==== Sys2Proof/Config.lean ====
section
/-! DEFINITION. The implementation parameters of the block (00_scope.md R6). The widths are the types of
Sys2Proof.Word; the sine table `SINTAB` is in Sys2Proof.Machine.SineTable; the open parameter `QROUND` is a value
of `QRound`, held in the model's state so that every statement about all states holds for all three modes (log 4). -/

namespace Sys2Proof

/-- The values of the open parameter `QROUND` (00_scope.md R6, 42_quantizer.md R171): how the quantizer
converts a scaled value to an integer. -/
inductive QRound where
  /-- `TRUNC`: toward zero; the spec's default. -/
  | trunc
  /-- `NEAREST_AWAY`: to the nearest integer, a tie away from zero. -/
  | nearestAway
  /-- `NEAREST_EVEN`: to the nearest integer, a tie to the even one. -/
  | nearestEven
deriving DecidableEq, Repr

/-- The default of `QROUND` (00_scope.md R6, 42_quantizer.md R171). -/
def Config.defaultQRound : QRound := .trunc

/-- `SCALE_BITS`: the quantizer multiplies by `2^12` (00_scope.md R6). -/
abbrev Config.scaleBits : Nat := 12

/-- `XIN_FRAC`: the fraction bits of `XIN` (00_scope.md R6, 42_quantizer.md R176). -/
abbrev Config.xinFrac : Nat := 24

/-- `SIN_FRAC`: the fraction bits of a sine table entry (00_scope.md R6, 41_oscillator.md R147). -/
abbrev Config.sinFrac : Nat := 15

/-- The fraction bits of the ramp value (41_oscillator.md R152). -/
abbrev Config.rampFrac : Nat := 31

/-- The fraction bits of the triangle value (41_oscillator.md R154). -/
abbrev Config.triFrac : Nat := 30

/-- The fraction bits of the pwm value (41_oscillator.md R161). -/
abbrev Config.pwmFrac : Nat := 0

/-- `BLOCK_SIZE`: samples per block of the downstream Track; environment only (00_scope.md R6, 20_memory.md R71). -/
abbrev Config.blockSize : Nat := 1024

/-- `BLOCK_BITS`; environment only (00_scope.md R6, 20_memory.md R71). -/
abbrev Config.blockBits : Nat := 10

end Sys2Proof
end

