-- ==== Sys2Proof/Machine/State.lean ====
section
/-! DEFINITION. The state of OSCQ: the nine architectural elements (10_state.md R20), the output record `OUT` (R30),
and the model's own fields for what the spec puts outside the block (the host's side of a run, and the build-time
constant `QROUND`). -/

namespace Sys2Proof.Machine

/-- The machine's stops. There is none: an erroneous transaction sets a sticky flag and the machine goes on
(60_exceptions.md R200, R203), and the block never stops of itself (70_reset_and_hazards.md R242). So nobody raises
a fault, and no step can answer one (log 11). -/
inductive Fault where
deriving DecidableEq, Repr

/-- What the model refuses to run. -/
inductive Refusal where
  /-- An operation that has no meaning yet, by its mnemonic: raised by an arm of `exec` alone, and by none now.
  Safe: the model stops where the hardware goes on. -/
  | notModelled (mnemonic : String)
deriving DecidableEq, Repr

/-- The state of the model. -/
structure State where
  /-- `FREQ`, slot 0, the frequency word (10_state.md R21). -/
  freq : Word
  /-- `PHASE`, slot 1, the phase accumulator (R22). -/
  phase : Word
  /-- `DUTY`, slot 2, the pwm threshold (R23). -/
  duty : Word
  /-- `COUNT`, slot 3, the oscillator samples still to be produced (R24). -/
  count : Word
  /-- `XIN`, slot 4, the external value (R25). -/
  xin : Word
  /-- `SAMPLE`, slot 6, the last sample emitted (R26). -/
  sample : Sample
  /-- `ERR.OVERRUN`, sticky (R28). -/
  errOverrun : Bool
  /-- `ERR.ILLCMD`, sticky (R28). -/
  errIllCmd : Bool
  /-- `ERR.ADDR`, sticky (R28). -/
  errAddr : Bool
  /-- `OUT`, the samples emitted since the run began, oldest first (R30). The block cannot read it. -/
  out : List Sample
  /-- The model's own: the words returned to the host's reads since the run began, oldest first, the second result
  of a run (70_reset_and_hazards.md R242; log 2). The block cannot read it. -/
  reads : List Word
  /-- The model's own: the events the host has yet to present, the next one first (DESIGN CHOICE, log 1). -/
  input : List HostEvent
  /-- The model's own place for the build-time constant `QROUND` (00_scope.md R6; 10_state.md R34: no part of the
  block's state, changed by nothing; DESIGN CHOICE, log 4). -/
  qround : QRound
deriving DecidableEq, Repr

/-- The start of a run (70_reset_and_hazards.md R231, R242): every element at its reset value (10_state.md R35),
`OUT` empty, no read made, nothing presented by the host yet, `QROUND` at its default (log 4). -/
def State.reset : State where
  freq := 0
  phase := 0
  duty := 0
  count := 0
  xin := 0
  sample := 0
  errOverrun := false
  errIllCmd := false
  errAddr := false
  out := []
  reads := []
  input := []
  qround := Config.defaultQRound

end Sys2Proof.Machine
end

