-- ==== Sys2Proof/Machine/Flags.lean ====
section
/-! DEFINITION. The flags: `DONE`, the three sticky error flags, and the `STATUS` view (10_state.md R28, R29, R38). -/

namespace Sys2Proof.Machine

/-- `DONE`, derived: 1 exactly when `COUNT` is 0 (10_state.md R29). -/
def State.done (s : State) : Bool := s.count == 0

/-- The code of a cause is its bit number in `STATUS` (60_exceptions.md R201). -/
def causeCode : Cause → Nat
  | .overrun => 1
  | .illCmd => 2
  | .addrErr => 3

/-- The sticky flag of a cause (60_exceptions.md R201). -/
def State.flag (s : State) : Cause → Bool
  | .overrun => s.errOverrun
  | .illCmd => s.errIllCmd
  | .addrErr => s.errAddr

/-- Set the sticky flag of a cause; it stays set if it already was (10_state.md R28). -/
def State.setFlag (s : State) : Cause → State
  | .overrun => { s with errOverrun := true }
  | .illCmd => { s with errIllCmd := true }
  | .addrErr => { s with errAddr := true }

/-- Clear the three flags; only reset does (60_exceptions.md R207). -/
def State.clearFlags (s : State) : State :=
  { s with errOverrun := false, errIllCmd := false, errAddr := false }

/-- The word a read of `STATUS` returns: 28 zero bits, `ERR.ADDR`, `ERR.ILLCMD`, `ERR.OVERRUN`, `DONE` (10_state.md
R38, 40_register_access.md R132). -/
def State.statusWord (s : State) : Word :=
  (0 : BitVec 28) ++ BitVec.ofBool s.errAddr ++ BitVec.ofBool s.errIllCmd ++ BitVec.ofBool s.errOverrun
    ++ BitVec.ofBool s.done

end Sys2Proof.Machine
end

