-- ==== Sys2Proof/Machine/Operands.lean ====
section
/-! DEFINITION. The operand forms: the value of a register slot (`REG[i]`, 00_scope.md R9), a write of one, and the
integer primitives of 00_scope.md R8 that the operations use. -/

namespace Sys2Proof.Machine

/-- `signed_w(v)`: the two's complement value of a word (00_scope.md R8). -/
def signed {w : Nat} (v : BitVec w) : Int := v.toInt

/-- `wrap_16(z)`: an integer reduced to 16 bits with the floored modulus (00_scope.md R8, 42_quantizer.md R172). -/
def wrap16 (z : Int) : Sample := BitVec.ofInt 16 z

/-- `wrap_32(z)` (00_scope.md R8). -/
def wrap32 (z : Int) : Word := BitVec.ofInt 32 z

/-- `sext_32(v)` of a sample: the 32-bit word of the same two's complement value (00_scope.md R8). -/
def sext32 (v : Sample) : Word := v.signExtend 32

/-- `REG[i]` as a value: what an allowed read of the slot returns (40_register_access.md R126 to R132); a read of
`CMD` is not allowed and returns 0 (10_state.md R39). -/
def State.slotValue (s : State) : Slot → Word
  | .freq => s.freq
  | .phase => s.phase
  | .duty => s.duty
  | .count => s.count
  | .xin => s.xin
  | .cmd => 0
  | .sample => sext32 s.sample
  | .status => s.statusWord

/-- `FREQ <- v` -/
def State.setFreq (s : State) (v : Word) : State := { s with freq := v }

/-- `PHASE <- v` -/
def State.setPhase (s : State) (v : Word) : State := { s with phase := v }

/-- `DUTY <- v` -/
def State.setDuty (s : State) (v : Word) : State := { s with duty := v }

/-- `COUNT <- v` -/
def State.setCount (s : State) (v : Word) : State := { s with count := v }

/-- `XIN <- v` -/
def State.setXin (s : State) (v : Word) : State := { s with xin := v }

/-- The numerator of the external value `signed_32(XIN) / 2^24` (42_quantizer.md R176). -/
def State.xinNumerator (s : State) : Int := signed s.xin

end Sys2Proof.Machine
end

