-- ==== Sys2Proof/Machine/Quantize.lean ====
section
/-! DEFINITION. The quantizer function (42_quantizer.md R170 to R174), on exact integers: nothing is rounded but once,
and overflow wraps. -/

namespace Sys2Proof.Machine

/-- `TRUNC`: `A / D` toward zero, for `D > 0` (42_quantizer.md R171). -/
def rndTrunc (a : Int) (d : Nat) : Int := a.sign * ((a.natAbs / d : Nat) : Int)

/-- `NEAREST_AWAY`: `A / D` to the nearest integer, a tie away from zero, for even `D > 0` (42_quantizer.md R171). -/
def rndNearestAway (a : Int) (d : Nat) : Int := a.sign * (((a.natAbs + d / 2) / d : Nat) : Int)

/-- `NEAREST_EVEN`: `A / D` to the nearest integer, a tie to the even one, for `D > 0` (42_quantizer.md R171). -/
def rndNearestEven (a : Int) (d : Nat) : Int :=
  let q := a / (d : Int)
  let r := a - q * d
  if 2 * r < d then q
  else if (d : Int) < 2 * r then q + 1
  else if q % 2 = 0 then q
  else q + 1

/-- `rnd(A, d)`: the rational `A / 2^d`, `d ≥ 1`, converted to an integer as `QROUND` says (42_quantizer.md R171). -/
def rnd (mode : QRound) (a : Int) (d : Nat) : Int :=
  match mode with
  | .trunc => rndTrunc a (2 ^ d)
  | .nearestAway => rndNearestAway a (2 ^ d)
  | .nearestEven => rndNearestEven a (2 ^ d)

/-- The integer `z` of `Q(A, k)`: `A / 2^k` times `2^12`, converted to an integer (42_quantizer.md R170). -/
def scaled (mode : QRound) (a : Int) (k : Nat) : Int :=
  if k ≤ Config.scaleBits then a * 2 ^ (Config.scaleBits - k) else rnd mode a (k - Config.scaleBits)

/-- `Q(A, k)`: the 16-bit sample of the waveform value `A / 2^k` (42_quantizer.md R170, R172). -/
def quantize (mode : QRound) (a : Int) (k : Nat) : Sample := wrap16 (scaled mode a k)

end Sys2Proof.Machine
end

