-- ==== Sys2Proof/Machine/Ops.lean ====
section
/-! DEFINITION. The named operations over the state: emitting a sample, answering a read, raising an error, reset, and
the body that the oscillator commands share. All the writes of one operation take effect together and every read in it
sees the state before the transaction (00_scope.md R9). -/

namespace Sys2Proof.Machine

/-- `emit(s)`: `SAMPLE <- s; OUT <- OUT ++ [s]` (10_state.md R31). -/
def State.emit (s : State) (v : Sample) : State := { s with sample := v, out := s.out ++ [v] }

/-- The word `rdata` returned to the host by a read (30_encoding.md R90), recorded as the run's result (log 2). -/
def State.respond (s : State) (rdata : Word) : State := { s with reads := s.reads ++ [rdata] }

/-- `raise E` (60_exceptions.md R200, R203): the flag of the cause is set and nothing else in the block changes. The
block has no trap: no state is saved, no mode changes, and there is nothing to return from (R207). -/
def State.raise (s : State) (c : Cause) : State := s.setFlag c

/-- A transaction that the decoder rejects (40_register_access.md R133, 60_exceptions.md R203): `raise`, and a read
returns 0 whatever the state. -/
def State.reject (s : State) (rw : Bool) (c : Cause) : State :=
  if rw then s.raise c else (s.raise c).respond 0

/-- Reset, from either source (70_reset_and_hazards.md R230 to R232, 43_control.md R191): every register and flag 0;
the emitted samples stay emitted, and the configuration is not changed. -/
def State.blockReset (s : State) : State :=
  { s.clearFlags with freq := 0, phase := 0, duty := 0, count := 0, xin := 0, sample := 0 }

/-- The common body of the four oscillator commands, for the waveform value `A / 2^k` at the phase before the advance
(41_oscillator.md R142): rejected with `Overrun` while `COUNT` is 0 (R146); else emit the quantized value, advance the
phase by one sample period and count the sample. -/
def State.oscCommand (s : State) (a : Int) (k : Nat) : State :=
  if s.count = 0 then s.raise .overrun
  else ((s.emit (quantize s.qround a k)).setPhase (s.phase + s.freq)).setCount (s.count - 1)

/-- The host's next event has been taken: the rest is yet to be presented (log 1). -/
def State.dropEvent (s : State) : State := { s with input := s.input.tail }

/-- The host presents an event before the ones it has yet to present (log 1). -/
def State.present (s : State) (e : HostEvent) : State := { s with input := e :: s.input }

end Sys2Proof.Machine
end

