-- ==== Sys2Proof/Machine/Control.lean ====
section
/-! DEFINITION. The control commands (43_control.md R190, R191). -/

namespace Sys2Proof.Machine

/-- `NOP`: nothing (43_control.md R190). -/
def execNop (s : State) : Host.Outcome State Fault Refusal := .next s

/-- `RESET`: the reset of the block, as a transaction (43_control.md R191). -/
def execReset (s : State) : Host.Outcome State Fault Refusal := .next s.blockReset

end Sys2Proof.Machine
end

