-- ==== Sys2Proof/Machine/Waveform.lean ====
section
/-! DEFINITION. The four waveform generators on the phase word (41_oscillator.md R141): each gives the numerator `A` of
the exact waveform value `A / 2^k`. A phase word `P` stands for the angle `2π·P / 2^32`. -/

namespace Sys2Proof.Machine

/-- The quadrant `P[31:30]` (41_oscillator.md R147). -/
def quadrantOf (p : Word) : BitVec 2 := p.extractLsb' 30 2

/-- The table index `P[29:22]`, 0 to 255 (41_oscillator.md R147). -/
def sineIndexOf (p : Word) : BitVec 8 := p.extractLsb' 22 8

/-- `T[k]` of a quarter-wave table, `k` in 0 to 256. -/
def tableEntry (table : List Nat) (k : Nat) : Int := ((table.getD k 0 : Nat) : Int)

/-- The sine numerator of a phase word, read from a quarter-wave table (41_oscillator.md R147). -/
def sinqOf (table : List Nat) (p : Word) : Int :=
  match (quadrantOf p).toNat with
  | 0 => tableEntry table (sineIndexOf p).toNat
  | 1 => tableEntry table (256 - (sineIndexOf p).toNat)
  | 2 => -tableEntry table (sineIndexOf p).toNat
  | _ => -tableEntry table (256 - (sineIndexOf p).toNat)

/-- `SINQ(P)` of the reference block, with 15 fraction bits (41_oscillator.md R147, R148). -/
def sinq (p : Word) : Int := sinqOf sintab p

/-- The ramp numerator `P − 2^31`, with 31 fraction bits (41_oscillator.md R152). -/
def rampNumerator (p : Word) : Int := (p.toNat : Int) - 2 ^ 31

/-- The triangle numerator, with 30 fraction bits: rising below phase π, falling from it (41_oscillator.md R154). -/
def triNumerator (p : Word) : Int :=
  if p.toNat < 2 ^ 31 then (p.toNat : Int) - 2 ^ 30 else 3 * 2 ^ 30 - (p.toNat : Int)

/-- The pwm numerator, with no fraction bits: +1 if the phase word is above the duty word, unsigned and strict,
else −1 (41_oscillator.md R161). -/
def pwmNumerator (p duty : Word) : Int := if duty.toNat < p.toNat then 1 else -1

end Sys2Proof.Machine
end

