-- ==== Sys2Proof/Machine/Oscillator.lean ====
section
/-! DEFINITION. The four oscillator commands (41_oscillator.md R151, R153, R155, R162). -/

namespace Sys2Proof.Machine

/-- `SINE`: `osc_command(SINQ(PHASE), 15)` (41_oscillator.md R151). -/
def execSine (s : State) : Host.Outcome State Fault Refusal :=
  .next (s.oscCommand (sinq s.phase) Config.sinFrac)

/-- `RAMP`: `osc_command(PHASE − 2^31, 31)` (41_oscillator.md R153). -/
def execRamp (s : State) : Host.Outcome State Fault Refusal :=
  .next (s.oscCommand (rampNumerator s.phase) Config.rampFrac)

/-- `TRI`: `osc_command(A, 30)` for the triangle numerator (41_oscillator.md R155). -/
def execTri (s : State) : Host.Outcome State Fault Refusal :=
  .next (s.oscCommand (triNumerator s.phase) Config.triFrac)

/-- `PWM`: `osc_command(±1, 0)` (41_oscillator.md R162). -/
def execPwm (s : State) : Host.Outcome State Fault Refusal :=
  .next (s.oscCommand (pwmNumerator s.phase s.duty) Config.pwmFrac)

end Sys2Proof.Machine
end

