-- ==== Sys2Proof/Machine/Quantizer.lean ====
section
/-! DEFINITION. The quantizer commands (42_quantizer.md R177, R178). Neither is gated by `COUNT`, and the oscillator does
not move. -/

namespace Sys2Proof.Machine

/-- `QX`: emit `Q(signed_32(XIN), 24)` (42_quantizer.md R177). -/
def execQx (s : State) : Host.Outcome State Fault Refusal :=
  .next (s.emit (quantize s.qround s.xinNumerator Config.xinFrac))

/-- `PASS imm16`: emit the immediate bit for bit (42_quantizer.md R178). -/
def execPass (imm16 : Sample) (s : State) : Host.Outcome State Fault Refusal := .next (s.emit imm16)

end Sys2Proof.Machine
end

