-- ==== Sys2Proof/Machine/RegisterAccess.lean ====
section
/-! DEFINITION. The register access operations (40_register_access.md R120 to R132). A write stores all 32 bits of its
data and changes nothing else; a read returns the register and changes nothing; none can raise. -/

namespace Sys2Proof.Machine

/-- `RD.FREQ` (40_register_access.md R126). -/
def execRdFreq (s : State) : Host.Outcome State Fault Refusal := .next (s.respond (s.slotValue .freq))

/-- `RD.PHASE` (40_register_access.md R127). -/
def execRdPhase (s : State) : Host.Outcome State Fault Refusal := .next (s.respond (s.slotValue .phase))

/-- `RD.DUTY` (40_register_access.md R128). -/
def execRdDuty (s : State) : Host.Outcome State Fault Refusal := .next (s.respond (s.slotValue .duty))

/-- `RD.COUNT` (40_register_access.md R129). -/
def execRdCount (s : State) : Host.Outcome State Fault Refusal := .next (s.respond (s.slotValue .count))

/-- `RD.XIN` (40_register_access.md R130). -/
def execRdXin (s : State) : Host.Outcome State Fault Refusal := .next (s.respond (s.slotValue .xin))

/-- `RD.SAMPLE`, sign-extended (40_register_access.md R131). -/
def execRdSample (s : State) : Host.Outcome State Fault Refusal := .next (s.respond (s.slotValue .sample))

/-- `RD.STATUS` (40_register_access.md R132). -/
def execRdStatus (s : State) : Host.Outcome State Fault Refusal := .next (s.respond (s.slotValue .status))

/-- `WR.FREQ` (40_register_access.md R121): the phase is not touched. -/
def execWrFreq (data : Word) (s : State) : Host.Outcome State Fault Refusal := .next (s.setFreq data)

/-- `WR.PHASE` (40_register_access.md R122). -/
def execWrPhase (data : Word) (s : State) : Host.Outcome State Fault Refusal := .next (s.setPhase data)

/-- `WR.DUTY` (40_register_access.md R123). -/
def execWrDuty (data : Word) (s : State) : Host.Outcome State Fault Refusal := .next (s.setDuty data)

/-- `WR.COUNT` (40_register_access.md R124). -/
def execWrCount (data : Word) (s : State) : Host.Outcome State Fault Refusal := .next (s.setCount data)

/-- `WR.XIN` (40_register_access.md R125). -/
def execWrXin (data : Word) (s : State) : Host.Outcome State Fault Refusal := .next (s.setXin data)

end Sys2Proof.Machine
end

