-- ==== Sys2Proof/Machine/Dispatch.lean ====
section
/-! DEFINITION. One arm per operation of spec/opcode_table.json (30_encoding.md R95, R96). -/

namespace Sys2Proof.Machine

def exec (i : Instr) (s : State) : Host.Outcome State Fault Refusal :=
  match i with
  | .rdFreq => Sys2Proof.Machine.execRdFreq s
  | .rdPhase => Sys2Proof.Machine.execRdPhase s
  | .rdDuty => Sys2Proof.Machine.execRdDuty s
  | .rdCount => Sys2Proof.Machine.execRdCount s
  | .rdXin => Sys2Proof.Machine.execRdXin s
  | .rdSample => Sys2Proof.Machine.execRdSample s
  | .rdStatus => Sys2Proof.Machine.execRdStatus s
  | .wrFreq data => Sys2Proof.Machine.execWrFreq data s
  | .wrPhase data => Sys2Proof.Machine.execWrPhase data s
  | .wrDuty data => Sys2Proof.Machine.execWrDuty data s
  | .wrCount data => Sys2Proof.Machine.execWrCount data s
  | .wrXin data => Sys2Proof.Machine.execWrXin data s
  | .nop => Sys2Proof.Machine.execNop s
  | .sine => Sys2Proof.Machine.execSine s
  | .ramp => Sys2Proof.Machine.execRamp s
  | .tri => Sys2Proof.Machine.execTri s
  | .pwm => Sys2Proof.Machine.execPwm s
  | .qx => Sys2Proof.Machine.execQx s
  | .pass imm16 => Sys2Proof.Machine.execPass imm16 s
  | .reset => Sys2Proof.Machine.execReset s

end Sys2Proof.Machine
end

