-- ==== Sys2Proof/Machine/Transaction.lean ====
section
/-! DEFINITION. One transaction, and one host event, on the block (60_exceptions.md R204, 70_reset_and_hazards.md R230). -/

namespace Sys2Proof.Machine

/-- One transaction: decode the word and execute its operation, or reject it. The checks of 60_exceptions.md R204 are
made in their order: the decoder checks the slot, then the command word; the operation checks the count. -/
def transact (tw : TransactionWord) (s : State) : Host.Outcome State Fault Refusal :=
  match decode tw with
  | .instr i => exec i s
  | .illegal c => .next (s.reject (rwOf tw) c)

/-- One event of the host: a transaction, or the reset input, which is no transaction but has the effect of `RESET`
(70_reset_and_hazards.md R230, R232; log 7). -/
def takeEvent (e : HostEvent) (s : State) : Host.Outcome State Fault Refusal :=
  match e with
  | .transaction tw => transact tw s
  | .rst => .next s.blockReset

/-- What happens when the host has nothing to present: the block holds its state unchanged for any length of time
(60_exceptions.md R212; log 3). -/
def idle (s : State) : Host.Outcome State Fault Refusal := .next s

/-- Where the next step finds its transaction: the front of what the host has yet to present. -/
def State.withTransaction (s : State) (tw : Option TransactionWord) : State :=
  match tw with
  | none => s
  | some tw => s.present (.transaction tw)

end Sys2Proof.Machine
end

