-- ==== Sys2Proof/Machine/Step.lean ====
section
/-! DEFINITION. One step of the machine: the host's next event, in the host's order (20_memory.md R57). The block has no
program counter and fetches nothing (10_state.md R33): the host presents each transaction (log 1). -/

namespace Sys2Proof.Machine

/-- One step: take the host's next event, or hold the state when there is none. -/
def step (s : State) : Host.Outcome State Fault Refusal :=
  match s.input with
  | [] => Sys2Proof.Machine.idle s
  | e :: _ => Sys2Proof.Machine.takeEvent e s.dropEvent

/-- The state in which the very next step takes the transaction whose bits, numbered as spec/opcode_table.json numbers
them, are `w`: the host presents it first (log 1, log 8). -/
def State.withFetchWord (s : State) (nbits w : Nat) : State := s.withTransaction (tableWord nbits w)

end Sys2Proof.Machine
end

