-- ==== Sys2Proof/Machine/Bus.lean ====
section
/-! DEFINITION. The byte-addressed mapping of the slots, where the host's bus has one (20_memory.md R52, R53). It is a bus
adapter outside the block: the block sees transactions only. `BASE` is the platform's, an argument here (log 14). -/

namespace Sys2Proof.Machine

/-- One access on a byte-addressed bus. A write carries its bytes by rising address. -/
structure BusAccess where
  write : Bool
  address : Nat
  width : Nat
  data : List (BitVec 8)
deriving DecidableEq, Repr

/-- The 32-bit word of bytes by rising address, little-endian (20_memory.md R52). -/
def wordOfBytes : List (BitVec 8) → Word
  | [] => 0
  | b :: bs => (wordOfBytes bs <<< 8) ||| b.zeroExtend 32

/-- The four bytes of a slot by rising address, little-endian: bits 7:0 first (20_memory.md R52). -/
def bytesOfWord (w : Word) : List (BitVec 8) :=
  [w.extractLsb' 0 8, w.extractLsb' 8 8, w.extractLsb' 16 8, w.extractLsb' 24 8]

/-- The byte address of byte `k` of a slot (20_memory.md R52). -/
def slotByteAddress (base : Nat) (idx : SlotIndex) (k : Nat) : Nat := base + 4 * idx.toNat + k

/-- An access that the adapter turns into a transaction: 32 bits wide, aligned, within `BASE` to `BASE + 63`
(20_memory.md R53); a write carries all its bytes. -/
def BusAccess.accepted (base : Nat) (a : BusAccess) : Bool :=
  decide (a.width = 4) && decide (base ≤ a.address) && decide (a.address < base + 64)
    && decide (a.address % 4 = 0) && decide ((a.address - base) % 4 = 0)
    && (!a.write || decide (a.data.length = 4))

/-- The transaction of an access; none where the adapter makes no transaction and reports a bus error to the host by
its own means (20_memory.md R53). -/
def busTransaction (base : Nat) (a : BusAccess) : Option TransactionWord :=
  if a.accepted base then
    some (transactionWord a.write (BitVec.ofNat 4 ((a.address - base) / 4)) (if a.write then wordOfBytes a.data else 0))
  else none

end Sys2Proof.Machine
end

