-- ==== Sys2Proof/Machine/Run.lean ====
section
/-! DEFINITION. A run (70_reset_and_hazards.md R242): a reset followed by a finite list of the host's events, in order, and
its three results. -/

namespace Sys2Proof.Machine

/-- The host has this list of events to present, and no other. -/
def State.withInput (s : State) (events : List HostEvent) : State := { s with input := events }

/-- The steps of a list of events, one per event, from a given state. -/
def runFrom (s : State) (events : List HostEvent) : Host.Outcome State Fault Refusal :=
  Host.Core.run Sys2Proof.core events.length (s.withInput events)

/-- A run from the start state of 70_reset_and_hazards.md R231 with `OUT` empty (R242). -/
def runOf (events : List HostEvent) : Host.Outcome State Fault Refusal := runFrom State.reset events

/-- The state an outcome goes on in. -/
def nextState (o : Host.Outcome State Fault Refusal) : Option State :=
  match o with
  | .next t => some t
  | .fault _ => none
  | .refused _ => none

/-- The three results of a run: the final state, the words returned to the reads and the samples emitted, both in
order (70_reset_and_hazards.md R242). -/
structure RunResult where
  final : State
  rdata : List Word
  samples : List Sample
deriving DecidableEq, Repr

/-- The results of a run that ends in a state. -/
def State.result (s : State) : RunResult := ⟨s, s.reads, s.out⟩

end Sys2Proof.Machine
end

