-- ==== Sys2Proof/WellFormed.lean ====
section
/-! DEFINITION. Well-formedness. Of an operation there is nothing to check: the widths of its operands (30_encoding.md
R92, R93) are the widths of their types, and every value of them is legal (10_state.md R21 to R25, 42_quantizer.md
R178). What can be ill-formed is a line of the assembler notation (R101): a write of a slot that the notation does
not list, or a number outside its operand (log 16). -/

namespace Sys2Proof

/-- Every operation is well-formed: no operand value is reserved (40_register_access.md R120, 42_quantizer.md
R178). -/
def Instr.wellFormed : Instr → Bool
  | .rdFreq => true
  | .rdPhase => true
  | .rdDuty => true
  | .rdCount => true
  | .rdXin => true
  | .rdSample => true
  | .rdStatus => true
  | .wrFreq _ => true
  | .wrPhase _ => true
  | .wrDuty _ => true
  | .wrCount _ => true
  | .wrXin _ => true
  | .nop => true
  | .sine => true
  | .ramp => true
  | .tri => true
  | .pwm => true
  | .qx => true
  | .pass _ => true
  | .reset => true

/-- The slots the host may read (10_state.md R32; `RD` in 30_encoding.md R101). -/
def Slot.readable : Slot → Bool
  | .freq | .phase | .duty | .count | .xin | .sample | .status => true
  | .cmd => false

/-- The slots that a write stores to (10_state.md R32; `WR` in 30_encoding.md R101). A write of `CMD` is a
command and stores nothing (R39). -/
def Slot.storable : Slot → Bool
  | .freq | .phase | .duty | .count | .xin => true
  | .cmd | .sample | .status => false

/-- A number that stands for a `w`-bit word in the assembler notation: the word itself, or the negative number
whose two's complement word is meant (30_encoding.md R101, log 16). -/
def fitsWord (w : Nat) (v : Int) : Bool :=
  decide (-(2 ^ (w - 1)) ≤ v) && decide (v < 2 ^ w)

/-- A line of the assembler notation is one that 30_encoding.md R101 lists, each number within its operand. -/
def AsmLine.wellFormed : AsmLine → Bool
  | .wr reg value => reg.storable && fitsWord 32 value
  | .rd reg => reg.readable
  | .nop => true
  | .sine => true
  | .ramp => true
  | .tri => true
  | .pwm => true
  | .qx => true
  | .pass imm16 => fitsWord 16 imm16
  | .reset => true
  | .raw rw idx data => decide (rw < 2) && decide (idx < 16) && fitsWord 32 data

/-- A host program is well-formed when each of its lines and operands is. -/
def HostProgram.wellFormed : HostProgram → Bool
  | .skip => true
  | .line l => l.wellFormed
  | .seq first second => first.wellFormed && second.wellFormed
  | .restart => true
  | .tone fcw n => fitsWord 32 fcw && fitsWord 32 n
  | .quant x => fitsWord 32 x
  | .rep _ body => body.wellFormed
  | .untilDone body => body.wellFormed

end Sys2Proof
end

