-- ==== Sys2Proof/Machine/HostProgram.lean ====
section
/-! DEFINITION. The host's side: the assembler notation, the pseudo-instructions and the host directives (30_encoding.md
R101, R102), and the frequency word of a frequency and a sample rate (41_oscillator.md R144). They are the host's, not
the block's; each expands to transactions, and the polling loop decides on the words it reads. -/

namespace Sys2Proof.Machine

/-- The transaction word of one line of the assembler notation; none for an ill-formed line (30_encoding.md R101). -/
def assemble (l : AsmLine) : Option TransactionWord :=
  if l.wellFormed then
    match l with
    | .wr reg value => some (encodeWrite reg (wrap32 value))
    | .rd reg => some (encodeRead reg)
    | .nop => some (encode .nop)
    | .sine => some (encode .sine)
    | .ramp => some (encode .ramp)
    | .tri => some (encode .tri)
    | .pwm => some (encode .pwm)
    | .qx => some (encode .qx)
    | .pass imm16 => some (encode (.pass (wrap16 imm16)))
    | .reset => some (encode .reset)
    | .raw rw idx data => some (transactionWord (rw == 1) (BitVec.ofNat 4 idx) (wrap32 data))
  else none

/-- The words of a list of lines; none if one is ill-formed. -/
def assembleAll : List AsmLine → Option (List TransactionWord)
  | [] => some []
  | l :: ls =>
    match assemble l, assembleAll ls with
    | some tw, some tws => some (tw :: tws)
    | _, _ => none

/-- `RESTART` = `WR PHASE, 0` (30_encoding.md R102). -/
def restartLines : List AsmLine := [.wr .phase 0]

/-- `TONE fcw, n` = `WR FREQ, fcw ; WR PHASE, 0 ; WR COUNT, n` (30_encoding.md R102). -/
def toneLines (fcw n : Int) : List AsmLine := [.wr .freq fcw, .wr .phase 0, .wr .count n]

/-- `QUANT x32` = `WR XIN, x32 ; QX` (30_encoding.md R102). -/
def quantLines (x : Int) : List AsmLine := [.wr .xin x, .qx]

/-- The transactions of a host program that makes no decision on what it reads; none for a program with a polling
loop, whose transactions depend on the reads, or with an ill-formed line. -/
def expand : HostProgram → Option (List TransactionWord)
  | .skip => some []
  | .line l => assembleAll [l]
  | .seq first second =>
    match expand first, expand second with
    | some a, some b => some (a ++ b)
    | _, _ => none
  | .restart => assembleAll restartLines
  | .tone fcw n => assembleAll (toneLines fcw n)
  | .quant x => assembleAll (quantLines x)
  | .rep n body => (expand body).map fun tws => (List.replicate n tws).flatten
  | .untilDone _ => none

/-- The host issues one transaction and waits until it has completed (70_reset_and_hazards.md R241). -/
def issue (tw : TransactionWord) (s : State) : Option State := nextState (step (s.present (.transaction tw)))

/-- The host issues transactions one after the other. -/
def issueAll : List TransactionWord → State → Option State
  | [], s => some s
  | tw :: tws, s =>
    match issue tw s with
    | some t => issueAll tws t
    | none => none

/-- The host issues assembler lines; none if one is ill-formed. -/
def issueLines (ls : List AsmLine) (s : State) : Option State :=
  match assembleAll ls with
  | some tws => issueAll tws s
  | none => none

/-- `.rep n { body }` (30_encoding.md R102). -/
def repeatHost (body : State → Option State) : Nat → State → Option State
  | 0, s => some s
  | n + 1, s =>
    match body s with
    | some t => repeatHost body n t
    | none => none

/-- Bit 0 of the last word returned to a read: `DONE`, after `RD STATUS`. -/
def lastReadDone (s : State) : Bool :=
  match s.reads.getLast? with
  | some w => w.getLsbD 0
  | none => false

/-- "Are you done?": the host reads `STATUS` and looks at bit 0 of the word (30_encoding.md R102, 20_memory.md R76). -/
def pollDone (s : State) : Option (Bool × State) := (issue (encode .rdStatus) s).map fun t => (lastReadDone t, t)

/-- `.until_done { body }` (30_encoding.md R102): repeat `RD STATUS`; leave the loop if bit 0 of the value read is 1;
else issue `body`. The first argument bounds the number of polls (log 15). -/
def untilDoneHost (body : State → Option State) : Nat → State → Option State
  | 0, _ => none
  | polls + 1, s =>
    match pollDone s with
    | none => none
    | some (true, t) => some t
    | some (false, t) =>
      match body t with
      | some u => untilDoneHost body polls u
      | none => none

/-- A host program run against the block, each polling loop with a bound on its polls; none when a loop exceeds the
bound or a line is ill-formed. -/
def runHost (polls : Nat) : HostProgram → State → Option State
  | .skip, s => some s
  | .line l, s => issueLines [l] s
  | .seq first second, s =>
    match runHost polls first s with
    | some t => runHost polls second t
    | none => none
  | .restart, s => issueLines restartLines s
  | .tone fcw n, s => issueLines (toneLines fcw n) s
  | .quant x, s => issueLines (quantLines x) s
  | .rep n body, s => repeatHost (runHost polls body) n s
  | .untilDone body, s => untilDoneHost (runHost polls body) polls s

/-- The frequency word of `f` hertz at `fs` samples per second, with the host's own rounding to an integer
(41_oscillator.md R144); rationals here (DESIGN CHOICE, log 18). -/
def frequencyWord (round : Rat → Int) (f fs : Rat) : Word := wrap32 (round (f * 2 ^ 32 / fs))

/-- The assembler's `FCW(f, FS)` where the program does not say how it rounds: defined where `f·2^32/FS` is an integer
(30_encoding.md R102); rationals here (DESIGN CHOICE, log 18). -/
def fcw (f fs : Rat) : Option Word :=
  if 0 < fs ∧ (f * 2 ^ 32 / fs).den = 1 then some (wrap32 (f * 2 ^ 32 / fs).num) else none

end Sys2Proof.Machine
end

