-- ==== Sys2Proof/Machine/SampleStore.lean ====
section
/-! DEFINITION. The downstream sample store: the Track, the Cursor and the container file (20_memory.md R70 to R82). It is
the environment, no part of the block (00_scope.md R4), and no step of the machine touches it: pure functions over the
samples of `OUT`, for claims that want to say what a recording looks like (R70; log 12). -/

namespace Sys2Proof.Machine

/-- The document's error kinds (20_memory.md R77). -/
inductive StoreError where
  /-- A negative flat position, rejected before any mutation. -/
  | invalidAddress
  /-- Bulk slice reads and writes, which fail fast. -/
  | notImplemented
deriving DecidableEq, Repr

/-! ## The cursor (20_memory.md R72, R73) -/

/-- A pair of a block index and an offset in [0, 1024) within the block (20_memory.md R72). -/
structure Cursor where
  block : Nat
  offset : Fin Config.blockSize
deriving DecidableEq, Repr

/-- `fromIndex(n)`: block `n >> BLOCK_BITS`, offset `n & (BLOCK_SIZE − 1)` (20_memory.md R72). -/
def Cursor.fromIndex (n : Nat) : Cursor where
  block := n >>> Config.blockBits
  offset := ⟨n &&& (Config.blockSize - 1), Nat.lt_of_le_of_lt Nat.and_le_right (by decide)⟩

/-- `flatPosition()` (20_memory.md R72). -/
def Cursor.flatPosition (c : Cursor) : Nat := c.block * Config.blockSize + c.offset.val

/-- The cursor of an integer flat position; a negative one is rejected (20_memory.md R72, R77). -/
def Cursor.ofPosition (n : Int) : Except StoreError Cursor :=
  if n < 0 then .error .invalidAddress else .ok (Cursor.fromIndex n.toNat)

/-- `advance(delta)` (20_memory.md R72). -/
def Cursor.advance (c : Cursor) (delta : Int) : Except StoreError Cursor :=
  Cursor.ofPosition ((c.flatPosition : Int) + delta)

/-- `advance(1)`, which no cursor rejects (20_memory.md R72, R76). -/
def Cursor.succ (c : Cursor) : Cursor := Cursor.fromIndex (c.flatPosition + 1)

/-- `fromTime(t, FS)`: `t × FS` converted to an integer by truncation toward zero (20_memory.md R73,
90_conflicts.md C3), for rational `t` and `FS` (DESIGN CHOICE, log 18). A negative `t` is rejected where the truncated index
is negative, so one less than a sample period below 0 is index 0 (DESIGN CHOICE, log 19). -/
def Cursor.fromTime (t fs : Rat) : Except StoreError Cursor :=
  Cursor.ofPosition ((t * fs).num.tdiv (t * fs).den)

/-! ## The track (20_memory.md R71, R74, R75) -/

/-- The samples of all allocated blocks in order; a whole number of blocks (`Track.wf`). -/
structure Track where
  samples : List Sample
deriving DecidableEq, Repr

/-- A Track is created empty (20_memory.md R71). -/
def Track.empty : Track := ⟨[]⟩

/-- A Track holds whole blocks (20_memory.md R71). -/
def Track.wf (t : Track) : Bool := t.samples.length % Config.blockSize == 0

/-- The number of allocated blocks. -/
def Track.blockCount (t : Track) : Nat := t.samples.length / Config.blockSize

/-- The number of blocks that an access at an index needs: 0 to `n >> 10` (20_memory.md R74). -/
def blocksFor (n : Nat) : Nat := n / Config.blockSize + 1

/-- Growth: the blocks up to the one of the index are allocated if absent, zero-filled; a Track never shrinks
(20_memory.md R71, R74). -/
def Track.grow (t : Track) (n : Nat) : Track :=
  ⟨t.samples ++ List.replicate (blocksFor n * Config.blockSize - t.samples.length) 0⟩

/-- The stored sample at an index of an allocated block. -/
def Track.get (t : Track) (n : Nat) : Sample := t.samples.getD n 0

/-- `read(index)`: grow, then the stored sample as a signed integer (20_memory.md R75). -/
def Track.read (t : Track) (n : Nat) : Int × Track := (signed ((t.grow n).get n), t.grow n)

/-- `write(index, delta)`: grow, then add to the stored value, wrapping in 16 bits (20_memory.md R75). -/
def Track.write (t : Track) (n : Nat) (delta : Int) : Track :=
  ⟨(t.grow n).samples.set n (wrap16 (signed ((t.grow n).get n) + delta))⟩

/-- `read` at an integer index: a negative one is rejected before any growth (20_memory.md R77). -/
def Track.readAt (t : Track) (index : Int) : Except StoreError (Int × Track) :=
  match Cursor.ofPosition index with
  | .ok c => .ok (t.read c.flatPosition)
  | .error e => .error e

/-- `write` at an integer index: a negative one is rejected before any mutation (20_memory.md R77). -/
def Track.writeAt (t : Track) (index : Int) (delta : Int) : Except StoreError Track :=
  match Cursor.ofPosition index with
  | .ok c => .ok (t.write c.flatPosition delta)
  | .error e => .error e

/-- Bulk slice access is not implemented and fails fast (20_memory.md R77). -/
def Track.readSlice (_t : Track) (_from _to : Nat) : Except StoreError (List Int) := .error .notImplemented

/-- Bulk slice access is not implemented and fails fast (20_memory.md R77). -/
def Track.writeSlice (_t : Track) (_from : Nat) (_deltas : List Int) : Except StoreError Track := .error .notImplemented

/-- The additive writes of a list of samples from a flat position on (20_memory.md R76). -/
def Track.writeFrom (t : Track) (n : Nat) : List Sample → Track
  | [] => t
  | v :: vs => (t.write n (signed v)).writeFrom (n + 1) vs

/-! ## Recording (20_memory.md R76) -/

/-- A sample that a source gives (20_memory.md R76): a value to be scaled, or an already-quantized integer. The document's
float is an exact rational `A / 2^k` here (00_scope.md R10; DESIGN CHOICE, log 18). -/
inductive SourceSample where
  | value (a : Int) (k : Nat)
  | quantized (z : Int)
deriving DecidableEq, Repr

/-- The conversion of a source's sample to what is written: a value by the quantizer, an integer as it is (20_memory.md
R76). -/
def SourceSample.convert (mode : QRound) : SourceSample → Int
  | .value a k => signed (quantize mode a k)
  | .quantized z => z

/-- The recording loop (20_memory.md R76): ask the source "are you done?"; if it is, stop; else take its next sample,
convert it, write it at the cursor, advance the cursor by 1, and repeat. A source is its two questions and a state; either
may have no answer, and the first number bounds the number of questions (log 15). -/
def Track.recordLoop {σ : Type} (mode : QRound) (done : σ → Option (Bool × σ)) (next : σ → Option (SourceSample × σ)) :
    Nat → Cursor → Track → σ → Option (Track × σ)
  | 0, _, _, _ => none
  | polls + 1, c, t, s =>
    match done s with
    | none => none
    | some (true, s') => some (t, s')
    | some (false, s') =>
      match next s' with
      | none => none
      | some (x, s'') => Track.recordLoop mode done next polls c.succ (t.write c.flatPosition (x.convert mode)) s''

/-- `record(startTime, source)` (20_memory.md R76): the loop from the cursor of the start time; a negative one is rejected
before any mutation (R77). -/
def Track.record {σ : Type} (t : Track) (mode : QRound) (start fs : Rat) (done : σ → Option (Bool × σ))
    (next : σ → Option (SourceSample × σ)) (polls : Nat) (source : σ) : Except StoreError (Option (Track × σ)) :=
  match Cursor.fromTime start fs with
  | .ok c => .ok (Track.recordLoop mode done next polls c t source)
  | .error e => .error e

/-- The source that has a given list of samples left: is it done? -/
def listDone (xs : List SourceSample) : Option (Bool × List SourceSample) := some (xs.isEmpty, xs)

/-- The next sample of a list. -/
def listNext : List SourceSample → Option (SourceSample × List SourceSample)
  | [] => none
  | x :: xs => some (x, xs)

/-! ## Sizes and serialisation (20_memory.md R78, R79) -/

/-- `bytes_per_sample` = 2 (20_memory.md R78). -/
abbrev bytesPerSample : Nat := 2

/-- Duration in seconds (20_memory.md R78), for a sample rate that is a positive rational (DESIGN CHOICE, log 18). -/
def Track.duration (t : Track) (rate : Rat) : Rat := ((Config.blockSize * t.blockCount : Nat) : Rat) / rate

/-- `byte_length` (20_memory.md R78). -/
def Track.byteLength (t : Track) : Nat := bytesPerSample * Config.blockSize * t.blockCount

/-- The low `k` bytes of a number, low byte first. -/
def littleEndian : Nat → Nat → List (BitVec 8)
  | 0, _ => []
  | k + 1, n => BitVec.ofNat 8 n :: littleEndian k (n / 256)

/-- The ASCII bytes of a text. -/
def asciiBytes (text : String) : List (BitVec 8) := text.toList.map fun c => BitVec.ofNat 8 c.toNat

/-- The 44 bytes before the samples (20_memory.md R79). DESIGN CHOICE, log 18: the sample rate of a file is a natural
number, and a size, rate or byte-rate that does not fit its uint32 field is held there modulo 2^32. -/
def wavHeader (rate total : Nat) : List (BitVec 8) :=
  asciiBytes "RIFF" ++ littleEndian 4 (total + 36) ++ asciiBytes "WAVEfmt " ++ littleEndian 4 16
    ++ littleEndian 2 1 ++ littleEndian 2 1 ++ littleEndian 4 rate ++ littleEndian 4 (rate * bytesPerSample * 1)
    ++ littleEndian 2 (bytesPerSample * 1) ++ littleEndian 2 16 ++ asciiBytes "data" ++ littleEndian 4 total

/-- `serialize`: the container file, the header and then every sample low byte first (20_memory.md R79), for a sample
rate that is a natural number (DESIGN CHOICE, log 18). -/
def Track.serialize (t : Track) (rate : Nat) : List (BitVec 8) :=
  wavHeader rate t.byteLength ++ t.samples.flatMap fun v => littleEndian 2 v.toNat

end Sys2Proof.Machine
end

