-- ==== Sys2Proof/Machine/Recording.lean ====
section
/-! DEFINITION. The block as the source of a recording (20_memory.md R76): "are you done?" is a read of `STATUS.DONE`, and
"next sample" with its conversion is one sample command. It is the host's side, no part of the block. -/

namespace Sys2Proof.Machine

/-- "Next sample": the host issues a sample command, and what is to be written is `signed_16` of the one word it emitted
(20_memory.md R76); no answer if the command emitted none. -/
def nextFromBlock (c : Instr) (s : State) : Option (SourceSample × State) :=
  match issue (encode c) s with
  | none => none
  | some t =>
    match t.out.drop s.out.length with
    | [v] => some (.quantized (signed v), t)
    | _ => none

/-- `record(startTime, source)` with the block as the source and the quantizer (20_memory.md R76). -/
def recordBlock (t : Track) (start fs : Rat) (c : Instr) (polls : Nat) (s : State) :
    Except StoreError (Option (Track × State)) :=
  t.record s.qround start fs pollDone (nextFromBlock c) polls s

end Sys2Proof.Machine
end

