-- ==== Sys2Proof/Safety.lean ====
section
/-! DEFINITION. What counts as a successful run (60_exceptions.md R207, 70_reset_and_hazards.md R242), and the vocabulary
that claims use: the classes of operations of the glossary (00_scope.md R12) and the sample an oscillator command emits. -/

namespace Sys2Proof

/-- The oscillator commands: `SINE`, `RAMP`, `TRI`, `PWM` (00_scope.md R12). -/
def Instr.isOscillator : Instr → Bool
  | .sine | .ramp | .tri | .pwm => true
  | .rdFreq | .rdPhase | .rdDuty | .rdCount | .rdXin | .rdSample | .rdStatus => false
  | .wrFreq _ | .wrPhase _ | .wrDuty _ | .wrCount _ | .wrXin _ => false
  | .nop | .qx | .pass _ | .reset => false

/-- The sample commands: the oscillator commands, `QX` and `PASS` (00_scope.md R12). -/
def Instr.isSampleCommand : Instr → Bool
  | .sine | .ramp | .tri | .pwm | .qx | .pass _ => true
  | .rdFreq | .rdPhase | .rdDuty | .rdCount | .rdXin | .rdSample | .rdStatus => false
  | .wrFreq _ | .wrPhase _ | .wrDuty _ | .wrCount _ | .wrXin _ => false
  | .nop | .reset => false

/-- The register reads (30_encoding.md R91). -/
def Instr.isRead : Instr → Bool
  | .rdFreq | .rdPhase | .rdDuty | .rdCount | .rdXin | .rdSample | .rdStatus => true
  | .wrFreq _ | .wrPhase _ | .wrDuty _ | .wrCount _ | .wrXin _ => false
  | .nop | .sine | .ramp | .tri | .pwm | .qx | .pass _ | .reset => false

namespace Machine

/-- No error flag is set. -/
def State.errClear (s : State) : Bool := !s.errOverrun && !s.errIllCmd && !s.errAddr

/-- A run is successful when its final `ERR` is 0 (70_reset_and_hazards.md R242). -/
def RunSucceeds (o : Host.Outcome State Fault Refusal) : Prop := ∃ t, o = .next t ∧ t.errClear = true

/-- An event that resets the block: the input `rst`, or the command `RESET` (70_reset_and_hazards.md R230). -/
def resets : HostEvent → Bool
  | .rst => true
  | .transaction tw => decide (decode tw = .instr .reset)

/-- An event that writes `COUNT` from outside: `WR.COUNT` (10_state.md R29; a reset is the other one). -/
def writesCount : HostEvent → Bool
  | .rst => false
  | .transaction tw =>
    match decode tw with
    | .instr (.wrCount _) => true
    | _ => false

/-- What an event raises in a state, by the table of 60_exceptions.md R201: the decoder's rejection of a word, or
`Overrun` by a legal oscillator command while `COUNT` is 0. -/
def raisedBy (s : State) : HostEvent → Option Cause
  | .rst => none
  | .transaction tw =>
    match decode tw with
    | .illegal c => some c
    | .instr i => if i.isOscillator = true ∧ s.count = 0 then some .overrun else none

/-- The invariant of `SAMPLE` and `OUT` (10_state.md R36), where `n` is the length of `OUT` at the last reset: `SAMPLE`
is 0 if no sample was emitted since then, else the last sample of `OUT`. -/
def SampleTracksOut (n : Nat) (s : State) : Prop :=
  (s.out.length = n ∧ s.sample = 0) ∨ (n < s.out.length ∧ s.out.getLast? = some s.sample)

/-- The waveform value `A / 2^k` of an oscillator command at a phase word and a duty word, as numerator and fraction
bits (41_oscillator.md R147, R152, R154, R161); none for an operation that is no oscillator command. -/
def waveformValue (i : Instr) (p duty : Word) : Option (Int × Nat) :=
  match i with
  | .sine => some (sinq p, 15)
  | .ramp => some (rampNumerator p, 31)
  | .tri => some (triNumerator p, 30)
  | .pwm => some (pwmNumerator p duty, 0)
  | .rdFreq | .rdPhase | .rdDuty | .rdCount | .rdXin | .rdSample | .rdStatus => none
  | .wrFreq _ | .wrPhase _ | .wrDuty _ | .wrCount _ | .wrXin _ => none
  | .nop | .qx | .pass _ | .reset => none

/-- The sample an oscillator command emits at a phase word and a duty word (41_oscillator.md R142); 0 for an
operation that is no oscillator command. -/
def oscSample (mode : QRound) (i : Instr) (p duty : Word) : Sample :=
  match waveformValue i p duty with
  | some (a, k) => quantize mode a k
  | none => 0

end Machine

end Sys2Proof
end

