-- ==== Sys2Proof/Certificates/Slice0/Obligations.lean ====
section
/-! DEFINITION. The statements about OSCQ. Each says in its docstring which part of the spec it formalises; `log <n>` is
notes/assumptions/<n>.md. None rests on the mode `QROUND` has at reset: a statement about every state holds for all
three modes. -/

open Sys2Proof Sys2Proof.Machine

/-! ## Encoding -/

/-- Every operation is well-formed, and decoding its encoding gives it back, operand included (30_encoding.md, the
transaction word and the opcode map). -/
def Obligations.DecodeInvertsEncode : Prop :=
  ∀ i : Instr, i.wellFormed = true ∧ decode (encode i) = .instr i

/-- A word that decodes to an operation is the operation's encoding, but for the ignored data of a read, which the
encoder writes as 0 (30_encoding.md, the opcode map; the 0 is the model's choice, log 9). -/
def Obligations.EncodeInvertsDecode : Prop :=
  ∀ (tw : TransactionWord) (i : Instr), decode tw = .instr i →
    encode i = if tw.getLsbD 36 then tw else tw &&& 0x1F00000000

/-- The decoder of 30_encoding.md R97 and the mask-and-match table of R95 and R96 agree: a word decodes to an operation
exactly when it selects a row of the table, the row is that operation's, and the operand is the field the table gives. -/
def Obligations.DecoderAgreesWithOpcodeTable : Prop :=
  ∀ tw : TransactionWord,
    (∀ i, decode tw = .instr i → i.row.selects tw ∧ i.row ∈ opcodeRows) ∧
    (∀ row ∈ opcodeRows, row.selects tw → ∃ i, decode tw = .instr i ∧ i.row = row) ∧
    (∀ d, (decode tw = .instr (.wrFreq d) ∨ decode tw = .instr (.wrPhase d) ∨ decode tw = .instr (.wrDuty d) ∨
        decode tw = .instr (.wrCount d) ∨ decode tw = .instr (.wrXin d)) → d = tw.extractLsb' 0 32) ∧
    (∀ m, decode tw = .instr (.pass m) → m = tw.extractLsb' 16 16)

/-- The illegal encodings are exactly the reserved ones of 30_encoding.md R98: a read of slot 5, a write of slot 6 or 7
or any access to slots 8 to 15 is `AddrErr`; a write to slot 5 whose command word is not a legal one is `IllCmd`. -/
def Obligations.IllegalWordsAreTheReservedOnes : Prop :=
  ∀ (rw : Bool) (idx : SlotIndex) (d : Word),
    (decode (transactionWord rw idx d) = .illegal .addrErr ↔
      (rw = false ∧ idx.toNat = 5) ∨ (rw = true ∧ (idx.toNat = 6 ∨ idx.toNat = 7)) ∨ 8 ≤ idx.toNat) ∧
    (decode (transactionWord rw idx d) = .illegal .illCmd ↔
      rw = true ∧ idx.toNat = 5 ∧
        (d.toNat / 2 ^ 8 % 2 ^ 8 ≠ 0 ∨ 8 ≤ d.toNat % 2 ^ 8 ∨ (d.toNat / 2 ^ 16 ≠ 0 ∧ d.toNat % 2 ^ 8 ≠ 6))) ∧
    decode (transactionWord rw idx d) ≠ .illegal .overrun

/-- The data of a read selects nothing (30_encoding.md R91). -/
def Obligations.ReadDataIsIgnored : Prop :=
  ∀ (idx : SlotIndex) (d d' : Word), decode (transactionWord false idx d) = decode (transactionWord false idx d')

/-- Words written out from the spec's encodings, one or more of each family, decode to the operations they stand for
(95_test_vectors.md, the decoder vectors). -/
def Obligations.WrittenOutWordsDecode : Prop :=
  decode 0x0412345678 = .instr .rdXin ∧ decode 0x0700000000 = .instr .rdStatus ∧
  decode 0x1010000000 = .instr (.wrFreq 0x10000000) ∧ decode 0x14FF000000 = .instr (.wrXin 0xFF000000) ∧
  decode 0x1500000001 = .instr .sine ∧ decode 0x1500000004 = .instr .pwm ∧
  decode 0x15FFFF0006 = .instr (.pass 0xFFFF) ∧ decode 0x1500000000 = .instr .nop ∧
  decode 0x1500000007 = .instr .reset ∧ decode 0x0500000000 = .illegal .addrErr ∧
  decode 0x1500010001 = .illegal .illCmd ∧ decode 0x15FFFF0106 = .illegal .illCmd

/-! ## The step -/

/-- A step runs the decoded operation: when the host's next event is a transaction whose word decodes to an operation,
the step is that operation on the state in which the event has been taken. (That the host's events wait in the state
is the model's choice, log 1.) -/
def Obligations.StepRunsTheDecodedOperation : Prop :=
  ∀ (s : State) (tw : TransactionWord) (rest : List HostEvent) (i : Instr),
    s.input = .transaction tw :: rest → decode tw = .instr i → step s = exec i { s with input := rest }

/-- An access that the slot map does not allow sets `ERR.ADDR` and changes nothing else; a read then returns 0
(40_register_access.md R133). -/
def Obligations.ForbiddenAccessRaisesAddrErr : Prop :=
  ∀ (s : State) (rw : Bool) (idx : SlotIndex) (d : Word) (rest : List HostEvent),
    s.input = .transaction (transactionWord rw idx d) :: rest →
    ((rw = false ∧ idx.toNat = 5) ∨ (rw = true ∧ (idx.toNat = 6 ∨ idx.toNat = 7)) ∨ 8 ≤ idx.toNat) →
    step s = .next { s with
      input := rest
      errAddr := true
      reads := if rw then s.reads else s.reads ++ [0] }

/-- A write of an illegal command word to slot 5 sets `ERR.ILLCMD` and changes nothing else (30_encoding.md, reserved
and illegal encodings; 60_exceptions.md, the error mechanism). -/
def Obligations.IllegalCommandWordRaisesIllCmd : Prop :=
  ∀ (s : State) (cw : Word) (rest : List HostEvent),
    s.input = .transaction (transactionWord true 5 cw) :: rest →
    (cw.toNat / 2 ^ 8 % 2 ^ 8 ≠ 0 ∨ 8 ≤ cw.toNat % 2 ^ 8 ∨ (cw.toNat / 2 ^ 16 ≠ 0 ∧ cw.toNat % 2 ^ 8 ≠ 6)) →
    step s = .next { s with input := rest, errIllCmd := true }

/-- The checks of one transaction are made in the order slot, command word, count; the first that fails is the one
raised, and no transaction sets more than one flag (60_exceptions.md R204). -/
def Obligations.FirstFailingCheckRaises : Prop :=
  ∀ (s t : State) (rw : Bool) (idx : SlotIndex) (d : Word) (rest : List HostEvent),
    s.input = .transaction (transactionWord rw idx d) :: rest → step s = .next t →
    (((rw = false ∧ idx.toNat = 5) ∨ (rw = true ∧ (idx.toNat = 6 ∨ idx.toNat = 7)) ∨ 8 ≤ idx.toNat) →
      t.errAddr = true ∧ t.errIllCmd = s.errIllCmd ∧ t.errOverrun = s.errOverrun) ∧
    (rw = true ∧ idx.toNat = 5 ∧
        (d.toNat / 2 ^ 8 % 2 ^ 8 ≠ 0 ∨ 8 ≤ d.toNat % 2 ^ 8 ∨ (d.toNat / 2 ^ 16 ≠ 0 ∧ d.toNat % 2 ^ 8 ≠ 6)) →
      t.errIllCmd = true ∧ t.errAddr = s.errAddr ∧ t.errOverrun = s.errOverrun) ∧
    (rw = true ∧ idx.toNat = 5 ∧ 1 ≤ d.toNat ∧ d.toNat ≤ 4 ∧ s.count = 0 →
      t.errOverrun = true ∧ t.errAddr = s.errAddr ∧ t.errIllCmd = s.errIllCmd) ∧
    (∀ c c' : Cause, s.flag c = false → t.flag c = true → s.flag c' = false → t.flag c' = true → c = c')

/-- With no event from the host the block holds its state (60_exceptions.md, "between transactions it holds its state
unchanged"). That such a moment is a step of its own is the model's choice, log 3. -/
def Obligations.IdleBlockHoldsItsState : Prop :=
  ∀ s : State, s.input = [] → step s = .next s

/-- Reset, by the input `rst` or by the command `RESET`, puts every element at its value of 10_state.md R35, clears the
three flags, and leaves the emitted samples and the configuration; `STATUS` then reads 1 and every other slot 0
(70_reset_and_hazards.md R231, R232). A run starts in that state with `OUT` empty. -/
def Obligations.ResetFromEitherSource : Prop :=
  (∀ (s : State) (rest : List HostEvent) (e : HostEvent),
    (e = .rst ∨ e = .transaction 0x1500000007) → s.input = e :: rest →
    ∃ t, step s = .next t ∧
      t.freq = 0 ∧ t.phase = 0 ∧ t.duty = 0 ∧ t.count = 0 ∧ t.xin = 0 ∧ t.sample = 0 ∧
      t.errOverrun = false ∧ t.errIllCmd = false ∧ t.errAddr = false ∧
      t.out = s.out ∧ t.reads = s.reads ∧ t.input = rest ∧ t.qround = s.qround ∧
      t.slotValue .status = 1 ∧ (∀ slot, slot ≠ .status → t.slotValue slot = 0)) ∧
  State.reset.freq = 0 ∧ State.reset.phase = 0 ∧ State.reset.duty = 0 ∧ State.reset.count = 0 ∧
  State.reset.xin = 0 ∧ State.reset.sample = 0 ∧ State.reset.errOverrun = false ∧ State.reset.errIllCmd = false ∧
  State.reset.errAddr = false ∧ State.reset.out = []

/-- The block never stops: every operation in every state, and so every step, answers a next state
(70_reset_and_hazards.md, the run: "The block never stops of itself"). -/
def Obligations.MachineNeverStops : Prop :=
  (∀ (i : Instr) (s : State), ∃ t, exec i s = .next t) ∧ ∀ s : State, ∃ t, step s = .next t

/-- Every step takes exactly the host's next event: the outcome of one transaction never selects which comes next
(43_control.md, no control transfer; the waiting list is the model's, log 1). -/
def Obligations.StepTakesOneEvent : Prop :=
  ∀ s t : State, step s = .next t → t.input = s.input.tail

/-- One sample is emitted, and latched in `SAMPLE`, exactly when a sample command executes (10_state.md R31); any other
step leaves `OUT` as it is, and `SAMPLE` too unless it resets. -/
def Obligations.EmitOncePerExecutedSampleCommand : Prop :=
  ∀ s t : State, step s = .next t →
    ((∃ tw i, s.input.head? = some (.transaction tw) ∧ decode tw = .instr i ∧ i.isSampleCommand = true ∧
        (i.isOscillator = true → s.count ≠ 0)) →
      ∃ w, t.sample = w ∧ t.out = s.out ++ [w]) ∧
    ((¬ ∃ tw i, s.input.head? = some (.transaction tw) ∧ decode tw = .instr i ∧ i.isSampleCommand = true ∧
        (i.isOscillator = true → s.count ≠ 0)) →
      t.out = s.out ∧ (t.sample = s.sample ∨ ∃ e, s.input.head? = some e ∧ resets e = true))

/-- Each error flag is set by exactly its cause, stays set, and is cleared by nothing but a reset (10_state.md, flags;
60_exceptions.md, the causes). -/
def Obligations.FlagsAreSetByTheirCauseAndClearedByReset : Prop :=
  ∀ (s t : State) (e : HostEvent) (rest : List HostEvent) (c : Cause),
    s.input = e :: rest → step s = .next t →
    t.flag c = (!resets e && (s.flag c || decide (raisedBy s e = some c)))

/-- No operation reads a flag to decide what it does (10_state.md, flags): two runs of any length that start in states
differing in the flags and in the words read so far emit the same samples and end in states differing in those alone. -/
def Obligations.FlagsDoNotSteerTheBlock : Prop :=
  ∀ (k : Nat) (s : State) (a b c : Bool) (r : List Word),
    ∃ t t', Host.Core.run Sys2Proof.core k s = .next t ∧
      Host.Core.run Sys2Proof.core k { s with errOverrun := a, errIllCmd := b, errAddr := c, reads := r } = .next t' ∧
      t = { t' with errOverrun := t.errOverrun, errIllCmd := t.errIllCmd, errAddr := t.errAddr, reads := t.reads }

/-- The block cannot read `OUT`, nor the words it returned: what was recorded before a step changes nothing in it but
that it stays recorded (10_state.md, the output stream; `reads` is the model's own record, log 2). -/
def Obligations.RecordIsNeverRead : Prop :=
  ∀ (s t : State) (o : List Sample) (r : List Word), step s = .next t →
    step { s with out := o ++ s.out, reads := r ++ s.reads } = .next { t with out := o ++ t.out, reads := r ++ t.reads }

/-- No step changes the configuration (10_state.md, what the block does not have; that `QROUND` is held in the state is
the model's choice, log 4). -/
def Obligations.ConfigurationIsConstant : Prop :=
  ∀ s t : State, step s = .next t → t.qround = s.qround

/-! ## Invariants -/

/-- Every step keeps the invariant of `SAMPLE` and `OUT` (10_state.md, invariants): `SAMPLE` is the last element of `OUT`
if some sample was emitted since the last reset, else 0. The step that resets moves the mark `n`, the length of `OUT`
at the last reset. -/
def Obligations.StepKeepsSampleTracksOut : Prop :=
  ∀ (n : Nat) (s t : State), SampleTracksOut n s → step s = .next t →
    SampleTracksOut (if s.input.head?.any resets then s.out.length else n) t

/-- The invariant of `SAMPLE` and `OUT` holds at the start of a run (10_state.md, invariants). -/
def Obligations.SampleTracksOutAtReset : Prop := SampleTracksOut 0 State.reset

/-- `DONE` is 1 exactly when `COUNT` is 0, and in a run of any length without an event that writes `COUNT` from outside
it never goes from 1 to 0 (10_state.md R29; a reset, which leaves `COUNT` = 0, is allowed here). -/
def Obligations.DoneIsMonotonic : Prop :=
  (∀ s : State, s.statusWord.getLsbD 0 = true ↔ s.count = 0) ∧
  ∀ (k : Nat) (s t : State), s.statusWord.getLsbD 0 = true → (∀ e ∈ s.input.take k, writesCount e = false) →
    Host.Core.run Sys2Proof.core k s = .next t → t.statusWord.getLsbD 0 = true

/-! ## The oscillator commands -/

/-- `SINE` while `COUNT` > 0: emit the quantized sine of the current phase, advance the phase, count the sample, and
change nothing else (41_oscillator.md, `SINE` and the common body). -/
def Obligations.SineEmitsAdvancesAndCounts : Prop :=
  ∀ s : State, s.count ≠ 0 → exec .sine s = .next { s with
    sample := BitVec.ofInt 16 (rnd s.qround (sinq s.phase) 3)
    out := s.out ++ [BitVec.ofInt 16 (rnd s.qround (sinq s.phase) 3)]
    phase := s.phase + s.freq
    count := s.count - 1 }

/-- `RAMP` while `COUNT` > 0 (41_oscillator.md, `RAMP` and the common body). -/
def Obligations.RampEmitsAdvancesAndCounts : Prop :=
  ∀ s : State, s.count ≠ 0 → exec .ramp s = .next { s with
    sample := BitVec.ofInt 16 (rnd s.qround ((s.phase.toNat : Int) - 2 ^ 31) 19)
    out := s.out ++ [BitVec.ofInt 16 (rnd s.qround ((s.phase.toNat : Int) - 2 ^ 31) 19)]
    phase := s.phase + s.freq
    count := s.count - 1 }

/-- `TRI` while `COUNT` > 0, on the rising and on the falling half (41_oscillator.md, `TRI` and the common body). -/
def Obligations.TriEmitsAdvancesAndCounts : Prop :=
  ∀ s : State, s.count ≠ 0 →
    (s.phase.toNat < 2 ^ 31 → exec .tri s = .next { s with
      sample := BitVec.ofInt 16 (rnd s.qround ((s.phase.toNat : Int) - 2 ^ 30) 18)
      out := s.out ++ [BitVec.ofInt 16 (rnd s.qround ((s.phase.toNat : Int) - 2 ^ 30) 18)]
      phase := s.phase + s.freq
      count := s.count - 1 }) ∧
    (2 ^ 31 ≤ s.phase.toNat → exec .tri s = .next { s with
      sample := BitVec.ofInt 16 (rnd s.qround (3 * 2 ^ 30 - (s.phase.toNat : Int)) 18)
      out := s.out ++ [BitVec.ofInt 16 (rnd s.qround (3 * 2 ^ 30 - (s.phase.toNat : Int)) 18)]
      phase := s.phase + s.freq
      count := s.count - 1 })

/-- `PWM` while `COUNT` > 0: 0x1000 above the duty word, else 0xF000, under every `QROUND` (41_oscillator.md, `PWM` and
the common body). -/
def Obligations.PwmEmitsAdvancesAndCounts : Prop :=
  ∀ s : State, s.count ≠ 0 → exec .pwm s = .next { s with
    sample := if s.duty < s.phase then 0x1000 else 0xF000
    out := s.out ++ [if s.duty < s.phase then 0x1000 else 0xF000]
    phase := s.phase + s.freq
    count := s.count - 1 }

/-- The gate of 41_oscillator.md R146: an oscillator command executes only while `COUNT` > 0; at 0 it raises `Overrun`
and nothing else changes; `QX` and `PASS` execute at any `COUNT`. -/
def Obligations.OscillatorCommandsAreGatedByCount : Prop :=
  (∀ (i : Instr) (s : State), i.isOscillator = true → s.count = 0 → exec i s = .next { s with errOverrun := true }) ∧
  (∀ (i : Instr) (s : State), i.isOscillator = true → s.count ≠ 0 →
    ∃ w, exec i s = .next { s with
      sample := w, out := s.out ++ [w], phase := s.phase + s.freq, count := s.count - 1 }) ∧
  (∀ s : State, ∃ w, exec .qx s = .next { s with sample := w, out := s.out ++ [w] }) ∧
  (∀ (m : Sample) (s : State), exec (.pass m) s = .next { s with sample := m, out := s.out ++ [m] })

/-- The document's test points (41_oscillator.md R163), at phase words 0, 0x40000000, 0x80000000 and 0xC0000000: the
waveform values are exact, and so are the samples, under every `QROUND`. -/
def Obligations.TestPointsAreExact : Prop :=
  sinq 0 = 0 ∧ sinq 0x40000000 = 2 ^ 15 ∧ sinq 0x80000000 = 0 ∧ sinq 0xC0000000 = -2 ^ 15 ∧
  rampNumerator 0 = -2 ^ 31 ∧ rampNumerator 0x40000000 = -2 ^ 30 ∧ rampNumerator 0x80000000 = 0 ∧
  rampNumerator 0xC0000000 = 2 ^ 30 ∧
  triNumerator 0 = -2 ^ 30 ∧ triNumerator 0x40000000 = 0 ∧ triNumerator 0x80000000 = 2 ^ 30 ∧
  triNumerator 0xC0000000 = 0 ∧
  ∀ (mode : QRound) (d : Word),
    ([0, 0x40000000, 0x80000000, 0xC0000000].map fun p => signed (oscSample mode .sine p d)) = [0, 4096, 0, -4096] ∧
    ([0, 0x40000000, 0x80000000, 0xC0000000].map fun p => signed (oscSample mode .ramp p d)) =
      [-4096, -2048, 0, 2048] ∧
    ([0, 0x40000000, 0x80000000, 0xC0000000].map fun p => signed (oscSample mode .tri p d)) = [-4096, 0, 4096, 0]

/-! ## The sine -/

/-- The sine generator reads the quarter-wave table by the top 10 bits of the phase word, mirrored in the odd quadrants
and negated in the last two (41_oscillator.md R147); the low 22 bits do not matter. -/
def Obligations.SineReadsTheQuarterWaveTable : Prop :=
  (∀ p : Word,
    sinq p =
      (if p.toNat / 2 ^ 30 = 0 then ((sintab.getD (p.toNat / 2 ^ 22 % 256) 0 : Nat) : Int)
       else if p.toNat / 2 ^ 30 = 1 then ((sintab.getD (256 - p.toNat / 2 ^ 22 % 256) 0 : Nat) : Int)
       else if p.toNat / 2 ^ 30 = 2 then -((sintab.getD (p.toNat / 2 ^ 22 % 256) 0 : Nat) : Int)
       else -((sintab.getD (256 - p.toNat / 2 ^ 22 % 256) 0 : Nat) : Int)) ∧
    -32768 ≤ sinq p ∧ sinq p ≤ 32768) ∧
  ∀ p p' : Word, p.toNat / 2 ^ 22 = p'.toNat / 2 ^ 22 → sinq p = sinq p'

/-- The checks that 41_oscillator.md states of `SINTAB`: 257 entries, three of them, strictly increasing, the sums and
the exclusive-or. -/
def Obligations.SineTableChecksums : Prop :=
  sintab.length = 257 ∧ sintab.getD 0 0 = 0 ∧ sintab.getD 128 0 = 23170 ∧ sintab.getD 256 0 = 32768 ∧
  sintab.Pairwise (· < ·) ∧ sintab.sum = 5356720 ∧ (sintab.take 128).sum = 1552564 ∧
  (sintab.drop 128).sum = 3804156 ∧ sintab.foldl (· ^^^ ·) 0 = 41088

/-- Every entry of `SINTAB` is 32768·sin(π·k/512) rounded to the nearest integer (41_oscillator.md, the table). -/
def Obligations.SineTableIsTheRoundedSine : Prop :=
  ∀ k : Nat, k ≤ 256 → |((sintab.getD k 0 : Nat) : ℝ) - 32768 * Real.sin (Real.pi * k / 512)| < 1 / 2

/-- Half a period on, the sine numerator is the opposite, at every phase word; and it is at most 1.0 in absolute value
(41_oscillator.md, the closed form's consequences). -/
def Obligations.SineIsHalfWaveAntisymmetric : Prop :=
  ∀ p : Word, sinq (p + 0x80000000) = -sinq p ∧ |sinq p| ≤ 32768

/-! ## The quantizer -/

/-- A waveform value in [−1, 1] never wraps: its sample is the scaled integer itself, in [−4096, 4096], under every mode.
The four waveforms are such values, so an oscillator command emits only the words 0x0000 to 0x1000 and 0xF000 to 0xFFFF;
this holds for any sine generator within [−1, 1]. An external value of magnitude below 8 − 2^−13 does not wrap either
(42_quantizer.md, ranges; its last sentence is read with log 17). -/
def Obligations.UnitValuesNeverWrap : Prop :=
  (∀ (mode : QRound) (a : Int) (k : Nat), |a| ≤ 2 ^ k →
    |scaled mode a k| ≤ 4096 ∧ signed (quantize mode a k) = scaled mode a k) ∧
  (∀ (i : Instr) (p d : Word), i.isOscillator = true → ∃ a k, waveformValue i p d = some (a, k) ∧ |a| ≤ 2 ^ k) ∧
  (∀ (mode : QRound) (i : Instr) (p d : Word), i.isOscillator = true →
    (oscSample mode i p d).toNat ≤ 0x1000 ∨ 0xF000 ≤ (oscSample mode i p d).toNat) ∧
  (∀ (mode : QRound) (x : Int), |x| < 2 ^ 27 - 2 ^ 11 → signed (quantize mode x 24) = scaled mode x 24)

/-- The three modes of `rnd` (42_quantizer.md R171), whose default is `TRUNC`. All are odd and exact on multiples of `D` = 2^d; `TRUNC` gives the
integer next to `A/D` toward zero; the nearest modes give the closest integer, `NEAREST_AWAY` a tie away from zero and
`NEAREST_EVEN` a tie to the even integer, and they differ at a tie only. -/
def Obligations.RoundingModesOfTheQuantizer : Prop :=
  Config.defaultQRound = .trunc ∧ ∀ (a : Int) (d : Nat), 1 ≤ d →
    (∀ mode, rnd mode (-a) d = -rnd mode a d) ∧
    (∀ (mode : QRound) (q : Int), a = q * 2 ^ d → rnd mode a d = q) ∧
    (|rnd .trunc a d| * 2 ^ d ≤ |a| ∧ |a| < (|rnd .trunc a d| + 1) * 2 ^ d ∧ 0 ≤ a * rnd .trunc a d) ∧
    2 * |a - rnd .nearestAway a d * 2 ^ d| ≤ 2 ^ d ∧
    2 * |a - rnd .nearestEven a d * 2 ^ d| ≤ 2 ^ d ∧
    (2 * |a - rnd .nearestAway a d * 2 ^ d| = 2 ^ d → |a| < |rnd .nearestAway a d * 2 ^ d|) ∧
    (2 * |a - rnd .nearestEven a d * 2 ^ d| = 2 ^ d → rnd .nearestEven a d % 2 = 0) ∧
    (rnd .nearestAway a d ≠ rnd .nearestEven a d → 2 * |a - rnd .nearestEven a d * 2 ^ d| = 2 ^ d)

/-- Overflow wraps modulo 2^16 and never saturates (42_quantizer.md R172). -/
def Obligations.QuantizerWrapsModulo65536 : Prop :=
  (∀ (mode : QRound) (a : Int) (k : Nat), ((quantize mode a k).toNat : Int) = scaled mode a k % 2 ^ 16 ∧
    signed (quantize mode a k) =
      (if (quantize mode a k).toNat < 2 ^ 15 then ((quantize mode a k).toNat : Int)
       else ((quantize mode a k).toNat : Int) - 2 ^ 16)) ∧
  wrap16 32768 = 0x8000 ∧ signed (wrap16 32768) = -32768 ∧ wrap16 (-32769) = 0x7FFF ∧ signed (wrap16 (-32769)) = 32767

/-- The samples of `RAMP` in closed form under `TRUNC`, and its top under the nearest modes (41_oscillator.md, `RAMP`,
corner cases). -/
def Obligations.RampSamplesInClosedForm : Prop :=
  ∀ p d : Word,
    (2 ^ 31 ≤ p.toNat → signed (oscSample .trunc .ramp p d) = ((p.toNat / 2 ^ 19 : Nat) : Int) - 4096) ∧
    (p.toNat < 2 ^ 31 → signed (oscSample .trunc .ramp p d) = -(((2 ^ 31 - p.toNat) / 2 ^ 19 : Nat) : Int)) ∧
    -4096 ≤ signed (oscSample .trunc .ramp p d) ∧ signed (oscSample .trunc .ramp p d) ≤ 4095 ∧
    (signed (oscSample .trunc .ramp p d) = 0 ↔ 0x7FF80001 ≤ p.toNat ∧ p.toNat ≤ 0x8007FFFF) ∧
    (0xFFFC0000 ≤ p.toNat →
      signed (oscSample .nearestAway .ramp p d) = 4096 ∧ signed (oscSample .nearestEven .ramp p d) = 4096)

/-- Where `TRI` reaches its extremes: under `TRUNC` at one phase word each, under the nearest modes within half a sample
unit (41_oscillator.md, `TRI`, corner cases). -/
def Obligations.TriangleExtremes : Prop :=
  ∀ p d : Word,
    (signed (oscSample .trunc .tri p d) = 4096 ↔ p = 0x80000000) ∧
    (signed (oscSample .trunc .tri p d) = -4096 ↔ p = 0) ∧
    ∀ mode, mode ≠ .trunc →
      (0x7FFE0000 ≤ p.toNat ∧ p.toNat ≤ 0x80020000 → signed (oscSample mode .tri p d) = 4096) ∧
      (0xFFFE0000 ≤ p.toNat ∨ p.toNat ≤ 0x00020000 → signed (oscSample mode .tri p d) = -4096)

/-- The pwm value is +1 above the duty word, unsigned and strict, else −1, and 2^32 − 1 − D of the 2^32 phase words give
+1 (41_oscillator.md R161). -/
def Obligations.PwmComparesStrictlyUnsigned : Prop :=
  ∀ d : Word,
    (∀ p : Word, waveformValue .pwm p d = some (if d.toNat < p.toNat then 1 else -1, 0)) ∧
    waveformValue .pwm d d = some (-1, 0) ∧
    ((Finset.range (2 ^ 32)).filter fun n => waveformValue .pwm (BitVec.ofNat 32 n) d = some (1, 0)).card =
      2 ^ 32 - 1 - d.toNat

/-! ## The waveforms against the document's formulas -/

/-- The ramp value is the document's `(phase/π) − 1` at the angle of the phase word, exactly; it runs from −1 at 0 to
1 − 2^−31 and never reaches +1 (41_oscillator.md R152). -/
def Obligations.RampFollowsTheDocument : Prop :=
  ∀ p : Word,
    rampNumerator p = (p.toNat : Int) - 2 ^ 31 ∧
    waveformValue .ramp p 0 = some (rampNumerator p, 31) ∧
    (rampNumerator p : ℝ) / 2 ^ 31 = (2 * Real.pi * p.toNat / 2 ^ 32) / Real.pi - 1 ∧
    -2 ^ 31 ≤ rampNumerator p ∧ rampNumerator p ≤ 2 ^ 31 - 1 ∧
    rampNumerator p = (p ^^^ 0x80000000).toInt ∧
    (rampNumerator p = -2 ^ 31 ↔ p = 0) ∧ (rampNumerator p = 2 ^ 31 - 1 ↔ p = 0xFFFFFFFF)

/-- The triangle value is the document's two-branch formula at the angle of the phase word, exactly; +1 is reached at
0x80000000 only, where the branches meet, and −1 at 0 only (41_oscillator.md R154). -/
def Obligations.TriangleFollowsTheDocument : Prop :=
  (2 ^ 31 - 2 ^ 30 : Int) = triNumerator 0x80000000 ∧
  ∀ p : Word,
    (p.toNat < 2 ^ 31 → triNumerator p = (p.toNat : Int) - 2 ^ 30) ∧
    (2 ^ 31 ≤ p.toNat → triNumerator p = 3 * 2 ^ 30 - (p.toNat : Int)) ∧
    waveformValue .tri p 0 = some (triNumerator p, 30) ∧
    (2 * Real.pi * p.toNat / 2 ^ 32 < Real.pi →
      (triNumerator p : ℝ) / 2 ^ 30 = 2 / Real.pi * (2 * Real.pi * p.toNat / 2 ^ 32) - 1) ∧
    (Real.pi ≤ 2 * Real.pi * p.toNat / 2 ^ 32 →
      (triNumerator p : ℝ) / 2 ^ 30 = -(2 / Real.pi) * (2 * Real.pi * p.toNat / 2 ^ 32) + 3) ∧
    -2 ^ 30 ≤ triNumerator p ∧ triNumerator p ≤ 2 ^ 30 ∧
    (triNumerator p = 2 ^ 30 ↔ p = 0x80000000) ∧ (triNumerator p = -2 ^ 30 ↔ p = 0)

/-- The duty word of an angle `d` in [0, 2π) makes the integer compare the document's real one at every phase; the word
0xFFFFFFFF gives the constant −1 of an angle of 2π or more; no word gives the constant +1 of a negative angle
(41_oscillator.md R160), but `PASS 4096` emits it. -/
def Obligations.DutyWordRealisesTheDutyAngle : Prop :=
  (∀ (d : ℝ) (p : Word), 0 ≤ d → d < 2 * Real.pi →
    ⌊d * 2 ^ 32 / (2 * Real.pi)⌋₊ < 2 ^ 32 ∧
    (pwmNumerator p (BitVec.ofNat 32 ⌊d * 2 ^ 32 / (2 * Real.pi)⌋₊) = 1 ↔ d < 2 * Real.pi * p.toNat / 2 ^ 32)) ∧
  (∀ p : Word, pwmNumerator p 0xFFFFFFFF = -1) ∧ (∀ d : Word, pwmNumerator 0 d = -1) ∧
  ∀ s : State, exec (.pass 4096) s = .next { s with sample := 0x1000, out := s.out ++ [0x1000] }

/-- The phase accumulator over a run (41_oscillator.md, agreement with the document's phase): when the host presents N
oscillator commands, N at most `COUNT`, the n-th of them (from 0) emits the sample of its waveform at the phase word
`P0 + n·F`, and the run ends with `PHASE` = `P0 + N·F`, `COUNT` less by N and `SAMPLE` the last sample emitted (unchanged
if N is 0); nothing else changes. -/
def Obligations.OscillatorRunFollowsTheAccumulator : Prop :=
  ∀ (s : State) (cs : List Instr) (rest : List HostEvent),
    (∀ c ∈ cs, c.isOscillator = true) → cs.length ≤ s.count.toNat →
    s.input = cs.map (fun c => .transaction (encode c)) ++ rest →
    ∃ t emitted, Host.Core.run Sys2Proof.core cs.length s = .next t ∧
      emitted = cs.mapIdx (fun n c => oscSample s.qround c (s.phase + BitVec.ofNat 32 n * s.freq) s.duty) ∧
      t.phase = s.phase + BitVec.ofNat 32 cs.length * s.freq ∧
      t.count.toNat = s.count.toNat - cs.length ∧
      t.out = s.out ++ emitted ∧ t.sample = emitted.getLast?.getD s.sample ∧
      t.freq = s.freq ∧ t.duty = s.duty ∧ t.xin = s.xin ∧ t.errOverrun = s.errOverrun ∧ t.errIllCmd = s.errIllCmd ∧
      t.errAddr = s.errAddr ∧ t.reads = s.reads ∧ t.input = rest ∧ t.qround = s.qround

/-- With an exact frequency word, of either sign, the block's phase is the document's (2π·f·t) mod 2π with no error at any
sample (41_oscillator.md, agreement with the document's phase): from `PHASE` = 0 and `FREQ` = wrap_32(f·2^32/FS), a run of
N oscillator commands, N at most `COUNT`, leaves `PHASE` at the word of that angle at t = N/FS, and the k-th command has
emitted its waveform's sample at the word of that angle at t = k/FS. -/
def Obligations.ExactFrequencyWordGivesTheDocumentsPhase : Prop :=
  ∀ (f fs : ℝ) (F : Int) (s : State) (cs : List Instr) (rest : List HostEvent),
    0 < fs → (F : ℝ) = f * 2 ^ 32 / fs → s.phase = 0 → s.freq = wrap32 F →
    (∀ c ∈ cs, c.isOscillator = true) → cs.length ≤ s.count.toNat →
    s.input = cs.map (fun c => .transaction (encode c)) ++ rest →
    ∃ t, Host.Core.run Sys2Proof.core cs.length s = .next t ∧
      2 * Real.pi * t.phase.toNat / 2 ^ 32 = 2 * Real.pi * Int.fract (f * (cs.length / fs)) ∧
      ∀ (k : Nat) (h : k < cs.length), ∃ p : Word,
        2 * Real.pi * p.toNat / 2 ^ 32 = 2 * Real.pi * Int.fract (f * (k / fs)) ∧
        t.out[s.out.length + k]? = some (oscSample s.qround cs[k] p s.duty)

/-- Zero and negative frequency are legal (41_oscillator.md R145): with `FREQ` = 0 the phase is held and every oscillator
command emits the same sample, at `PHASE` = 0 that of 0, −4096, −4096 and −4096; with the two's complement of a
positive word the phase runs backwards, wrapping below 0. Neither raises anything. -/
def Obligations.ZeroAndNegativeFrequencyAreLegal : Prop :=
  (∀ (i : Instr) (s : State), i.isOscillator = true → s.count ≠ 0 → s.freq = 0 →
    exec i s = .next { s with
      sample := oscSample s.qround i s.phase s.duty
      out := s.out ++ [oscSample s.qround i s.phase s.duty]
      count := s.count - 1 }) ∧
  (∀ (mode : QRound) (d : Word), signed (oscSample mode .sine 0 d) = 0 ∧ signed (oscSample mode .ramp 0 d) = -4096 ∧
    signed (oscSample mode .tri 0 d) = -4096 ∧ signed (oscSample mode .pwm 0 d) = -4096) ∧
  (∀ (i : Instr) (s : State) (f : Nat), i.isOscillator = true → s.count ≠ 0 → f < 2 ^ 32 →
    s.freq = BitVec.ofInt 32 (-(f : Int)) →
    ∃ t, exec i s = .next t ∧ t.errOverrun = s.errOverrun ∧ t.errIllCmd = s.errIllCmd ∧ t.errAddr = s.errAddr ∧
      t.phase.toNat = if f ≤ s.phase.toNat then s.phase.toNat - f else s.phase.toNat + 2 ^ 32 - f)

/-- A change of the frequency word between two oscillator commands is phase-continuous: the phase goes P, P + F1,
P + F1 + F2, and the second command's sample is that of P + F1 (70_reset_and_hazards.md R236). -/
def Obligations.FrequencyChangeIsPhaseContinuous : Prop :=
  ∀ (s : State) (i j : Instr) (f2 : Word), i.isOscillator = true → j.isOscillator = true → 2 ≤ s.count.toNat →
    ∃ t u v, exec i s = .next t ∧ exec (.wrFreq f2) t = .next u ∧ exec j u = .next v ∧
      t.phase = s.phase + s.freq ∧ u.phase = s.phase + s.freq ∧ v.phase = s.phase + s.freq + f2 ∧
      v.out = s.out ++ [oscSample s.qround i s.phase s.duty, oscSample s.qround j (s.phase + s.freq) s.duty]

/-! ## The quantizer commands and the control commands -/

/-- `QX` (42_quantizer.md R177): at any `COUNT` it emits `wrap_16(rnd(signed_32(XIN), 12))` and changes nothing else; its
word is 0x00000005, any other word with that code is `IllCmd`; repeating it emits the same sample; and the corner cases
that the rule lists, in the order `TRUNC`, `NEAREST_AWAY`, `NEAREST_EVEN`. -/
def Obligations.QxQuantizesTheExternalValue : Prop :=
  (∀ s : State, exec .qx s = .next { s with
    sample := BitVec.ofInt 16 (rnd s.qround s.xin.toInt 12)
    out := s.out ++ [BitVec.ofInt 16 (rnd s.qround s.xin.toInt 12)] }) ∧
  (∀ s t : State, exec .qx s = .next t → exec .qx t = .next { t with out := t.out ++ [t.sample] }) ∧
  (∀ cw : Word, cw.toNat % 2 ^ 8 = 5 →
    decode (transactionWord true 5 cw) = if cw = 5 then .instr .qx else .illegal .illCmd) ∧
  (([0x00000FFF, 0xFFFFF001, 0xFFFFF000, 0x00000800, 0x00001800, 0x00002800, 0x07FFF000, 0x08000000, 0x10000000,
      0x7FFFFFFF, 0x80000000, 0x00800000] : List Word).map fun x =>
    (quantize .trunc (signed x) 24, quantize .nearestAway (signed x) 24, quantize .nearestEven (signed x) 24)) =
  [(0, 1, 1), (0, 0xFFFF, 0xFFFF), (0xFFFF, 0xFFFF, 0xFFFF), (0, 1, 0), (1, 2, 2), (2, 3, 2),
    (0x7FFF, 0x7FFF, 0x7FFF), (0x8000, 0x8000, 0x8000), (0, 0, 0), (0xFFFF, 0, 0), (0, 0, 0),
    (0x0800, 0x0800, 0x0800)]

/-- `PASS imm16` (42_quantizer.md R178): at any `COUNT` it emits the immediate bit for bit and changes nothing else; its
word is `{imm16, 0x00, 0x06}`, and one with a non-zero `zero` field is `IllCmd`. -/
def Obligations.PassEmitsTheImmediate : Prop :=
  (∀ (m : Sample) (s : State), exec (.pass m) s = .next { s with sample := m, out := s.out ++ [m] }) ∧
  (∀ cw : Word, cw.toNat % 2 ^ 8 = 6 →
    decode (transactionWord true 5 cw) =
      if cw.toNat / 2 ^ 8 % 2 ^ 8 = 0 then .instr (.pass (BitVec.ofNat 16 (cw.toNat / 2 ^ 16)))
      else .illegal .illCmd) ∧
  decode 0x1510000006 = .instr (.pass 0x1000) ∧ decode 0x15FFFF0006 = .instr (.pass 0xFFFF)

/-- `NOP` (43_control.md R190): nothing changes, at any `COUNT`; its word is 0, any other word with code 0 is `IllCmd`;
after reset it leaves `STATUS` = 1 and `OUT` empty. -/
def Obligations.NopChangesNothing : Prop :=
  (∀ s : State, exec .nop s = .next s) ∧
  (∀ cw : Word, cw.toNat % 2 ^ 8 = 0 →
    decode (transactionWord true 5 cw) = if cw = 0 then .instr .nop else .illegal .illCmd) ∧
  ∃ t, exec .nop State.reset = .next t ∧ t.slotValue .status = 1 ∧ t.out = []

/-- `RESET` (43_control.md R191): every register and flag 0, `OUT` and what is outside the block unchanged, nothing
emitted, in any state; `STATUS` reads 1 afterwards; two resets in a row equal one; its word is 7, any other word with
code 7 is `IllCmd`. The reset input has the same effect, and no other transaction clears a flag. -/
def Obligations.ResetCommandClearsTheBlock : Prop :=
  (∀ s : State, exec .reset s = .next { s with
    freq := 0, phase := 0, duty := 0, count := 0, xin := 0, sample := 0
    errOverrun := false, errIllCmd := false, errAddr := false }) ∧
  (∀ s t : State, exec .reset s = .next t → t.slotValue .status = 1 ∧ exec .reset t = .next t) ∧
  (∀ (s : State) (rest : List HostEvent), s.input = .rst :: rest → step s = exec .reset { s with input := rest }) ∧
  (∀ (s t : State) (tw : TransactionWord) (rest : List HostEvent) (c : Cause),
    s.input = .transaction tw :: rest → decode tw ≠ .instr .reset → step s = .next t →
    s.flag c = true → t.flag c = true) ∧
  (∀ cw : Word, cw.toNat % 2 ^ 8 = 7 →
    decode (transactionWord true 5 cw) = if cw = 7 then .instr .reset else .illegal .illCmd) ∧
  ∃ t u, exec .sine State.reset = .next t ∧ t.slotValue .status = 3 ∧ exec .reset t = .next u ∧
    u.slotValue .status = 1

/-! ## Register access -/

/-- The register access family (40_register_access.md R120): a write stores all 32 bits of its data in its register and
changes nothing else; a read returns its register (`SAMPLE` sign-extended, `STATUS` as `ERR.ADDR`, `ERR.ILLCMD`,
`ERR.OVERRUN`, `DONE` in bits 3 to 0) and changes nothing in the block; no value is checked and none of them raises.
(The returned word is recorded in `reads`, the model's own field, log 2.) -/
def Obligations.RegisterAccessReadsAndWrites : Prop :=
  ∀ (s : State) (d : Word),
    exec (.wrFreq d) s = .next { s with freq := d } ∧
    exec (.wrPhase d) s = .next { s with phase := d } ∧
    exec (.wrDuty d) s = .next { s with duty := d } ∧
    exec (.wrCount d) s = .next { s with count := d } ∧
    exec (.wrXin d) s = .next { s with xin := d } ∧
    exec .rdFreq s = .next { s with reads := s.reads ++ [s.freq] } ∧
    exec .rdPhase s = .next { s with reads := s.reads ++ [s.phase] } ∧
    exec .rdDuty s = .next { s with reads := s.reads ++ [s.duty] } ∧
    exec .rdCount s = .next { s with reads := s.reads ++ [s.count] } ∧
    exec .rdXin s = .next { s with reads := s.reads ++ [s.xin] } ∧
    exec .rdSample s = .next { s with reads := s.reads ++ [BitVec.ofInt 32 s.sample.toInt] } ∧
    exec .rdStatus s = .next { s with
      reads := s.reads ++ [BitVec.ofNat 32
        (s.errAddr.toNat * 8 + s.errIllCmd.toNat * 4 + s.errOverrun.toNat * 2 + if s.count = 0 then 1 else 0)] }

/-- The layout of `STATUS` (10_state.md R38): bit 0 is `DONE`, bits 1 to 3 are `ERR.OVERRUN`, `ERR.ILLCMD` and
`ERR.ADDR`, bits 31 to 4 read as zero; a read changes nothing in the block; a write to slot 7 raises `AddrErr` and is
otherwise ignored, so it clears no flag; after reset `STATUS` reads 1. -/
def Obligations.StatusIsAViewOfTheFlags : Prop :=
  (∀ s : State, ∃ w : Word, exec .rdStatus s = .next { s with reads := s.reads ++ [w] } ∧
    w.getLsbD 0 = decide (s.count = 0) ∧ w.getLsbD 1 = s.errOverrun ∧ w.getLsbD 2 = s.errIllCmd ∧
    w.getLsbD 3 = s.errAddr ∧ ∀ j, 4 ≤ j → w.getLsbD j = false) ∧
  (∀ (s : State) (d : Word) (rest : List HostEvent), s.input = .transaction (transactionWord true 7 d) :: rest →
    step s = .next { s with input := rest, errAddr := true }) ∧
  State.reset.slotValue .status = 0x00000001

/-- Reads may be repeated freely: a read changes no register, no flag and no sample, and the same read at once again
returns the same word; a register write twice with one value equals once (20_memory.md, atomicity and side effects). -/
def Obligations.ReadsAndRegisterWritesRepeat : Prop :=
  (∀ (i : Instr) (s : State), i.isRead = true → ∃ w, exec i s = .next { s with reads := s.reads ++ [w] } ∧
    ∀ t, exec i s = .next t → exec i t = .next { s with reads := s.reads ++ [w, w] }) ∧
  (∀ (i : Instr) (d : Word) (s t : State),
    (i = .wrFreq d ∨ i = .wrPhase d ∨ i = .wrDuty d ∨ i = .wrCount d ∨ i = .wrXin d) →
    exec i s = .next t → exec i t = .next t)

/-! ## The host's polling loop -/

/-- The document's loop ends: from any state with `COUNT` = n, `.until_done { c }` for an oscillator
command `c` leaves the loop at its poll number n + 1, with exactly n samples emitted, `COUNT` = 0 and no flag set
(30_encoding.md, host directives; 20_memory.md, recording; the bound on the polls is the model's, log 15). -/
def Obligations.PollingLoopDrainsTheCount : Prop :=
  ∀ (s : State) (c : Instr), c.isOscillator = true →
    ∃ t, untilDoneHost (issue (encode c)) (s.count.toNat + 1) s = some t ∧
      t.count = 0 ∧ t.out.length = s.out.length + s.count.toNat ∧ t.reads.length = s.reads.length + s.count.toNat + 1 ∧
      t.errOverrun = s.errOverrun ∧ t.errIllCmd = s.errIllCmd ∧ t.errAddr = s.errAddr

/-- The pseudo-instructions stand for the transactions that 30_encoding.md lists for them (host directives). -/
def Obligations.PseudoInstructionsExpand : Prop :=
  expand .restart = some [transactionWord true 1 0] ∧
  (∀ f n : Int, -2 ^ 31 ≤ f → f < 2 ^ 32 → -2 ^ 31 ≤ n → n < 2 ^ 32 →
    expand (.tone f n) = some [transactionWord true 0 (BitVec.ofInt 32 f), transactionWord true 1 0,
      transactionWord true 3 (BitVec.ofInt 32 n)]) ∧
  (∀ x : Int, -2 ^ 31 ≤ x → x < 2 ^ 32 →
    expand (.quant x) = some [transactionWord true 4 (BitVec.ofInt 32 x), 0x1500000005])

/-! ## The environment: the bus adapter and the downstream sample store (no part of the block; logs 12 and 14) -/

/-- The bus adapter accepts 32-bit accesses at a multiple of 4 within `BASE` to `BASE + 63` and no other, and gives slot
`i` the four bytes from `BASE + 4·i`, low byte first (20_memory.md, byte order, alignment and width; that `BASE` is a
multiple of 4 is read from them, log 14). -/
def Obligations.BusAdapterMapsAlignedWords : Prop :=
  (∀ (base : Nat) (idx : SlotIndex) (w : Word), base % 4 = 0 →
    busTransaction base ⟨true, base + 4 * idx.toNat, 4, bytesOfWord w⟩ = some (transactionWord true idx w) ∧
    busTransaction base ⟨false, base + 4 * idx.toNat, 4, []⟩ = some (transactionWord false idx 0)) ∧
  (∀ (base : Nat) (a : BusAccess), (a.width ≠ 4 ∨ a.address % 4 ≠ 0 ∨ a.address < base ∨ base + 63 < a.address) →
    busTransaction base a = none)

/-- The cursor of an index splits it at the block size and joins again, an offset is below 1024 and a cursor is the one of
its flat position; `advance` moves by a signed amount and rejects a negative flat position (20_memory.md R72). -/
def Obligations.CursorSplitsFlatPositions : Prop :=
  (∀ n : Nat, (Cursor.fromIndex n).block = n / 1024 ∧ (Cursor.fromIndex n).offset.val = n % 1024 ∧
    (Cursor.fromIndex n).flatPosition = n) ∧
  (∀ c : Cursor, c.offset.val < 1024 ∧ c.flatPosition = c.block * 1024 + c.offset.val ∧
    Cursor.fromIndex c.flatPosition = c) ∧
  (∀ (c : Cursor) (delta : Int), (c.flatPosition : Int) + delta < 0 → c.advance delta = .error .invalidAddress) ∧
  (∀ (c : Cursor) (delta : Int), 0 ≤ (c.flatPosition : Int) + delta →
    ∃ c', c.advance delta = .ok c' ∧ (c'.flatPosition : Int) = c.flatPosition + delta)

/-- A Track holds whole zero-filled blocks, grows by the blocks an access needs, and never shrinks; after the first
access, at index k, it has floor(k / 1024) + 1 blocks (20_memory.md, growth). -/
def Obligations.TrackGrowsByWholeBlocks : Prop :=
  (∀ k : Nat, (Track.empty.read k).2.blockCount = k / 1024 + 1 ∧ (Track.empty.read k).1 = 0 ∧
    ∀ delta, (Track.empty.write k delta).blockCount = k / 1024 + 1) ∧
  (∀ (t : Track) (k : Nat) (delta : Int), t.wf = true → (t.read k).2.wf = true ∧ (t.write k delta).wf = true ∧
    (t.read k).2.blockCount = max t.blockCount (k / 1024 + 1) ∧
    (t.write k delta).blockCount = max t.blockCount (k / 1024 + 1))

/-- A write adds to the stored value and wraps in 16 bits, with no saturation, and leaves every other index alone; two
writes to one index of a fresh Track store the sum (20_memory.md R75). -/
def Obligations.TrackWriteAddsAndWraps : Prop :=
  (∀ (t : Track) (n : Nat) (d : Int), ((t.write n d).read n).1 = ((t.read n).1 + d).bmod (2 ^ 16)) ∧
  (∀ (t : Track) (n m : Nat) (d : Int), m ≠ n → ((t.write n d).read m).1 = (t.read m).1) ∧
  (∀ (n : Nat) (d1 d2 : Int), (((Track.empty.write n d1).write n d2).read n).1 = (d1 + d2).bmod (2 ^ 16))

/-- A recording (20_memory.md, recording; the bounds on the polls are the model's, log 15): the k-th sample written into an
empty Track stands at the start index plus k and every other index is zero; a source with a list of samples left is
recorded by writing each of them, a value by the quantizer and an integer as it is; the block as the source, with an
oscillator command, is drained by the polling loop, and what it emitted since then is written from the start index on; a
rejected start time writes nothing. -/
def Obligations.RecordingPlacesEachSample : Prop :=
  (∀ (n : Nat) (samples : List Sample),
    (∀ k (h : k < samples.length), ((Track.empty.writeFrom n samples).read (n + k)).1 = signed (samples[k])) ∧
    (∀ m, (m < n ∨ n + samples.length ≤ m) → ((Track.empty.writeFrom n samples).read m).1 = 0)) ∧
  (∀ (t : Track) (mode : QRound) (start fs : Rat) (cur : Cursor) (xs : List SourceSample),
    Cursor.fromTime start fs = .ok cur →
    t.record mode start fs listDone listNext (xs.length + 1) xs =
      .ok (some (t.writeFrom cur.flatPosition (xs.map fun x => wrap16 (x.convert mode)), []))) ∧
  (∀ (mode : QRound) (a : Int) (k : Nat), wrap16 ((SourceSample.value a k).convert mode) = quantize mode a k) ∧
  (∀ (mode : QRound) (z : Int), (SourceSample.quantized z).convert mode = z) ∧
  (∀ (t : Track) (start fs : Rat) (cur : Cursor) (c : Instr) (s : State),
    Cursor.fromTime start fs = .ok cur → c.isOscillator = true →
    ∃ u, untilDoneHost (issue (encode c)) (s.count.toNat + 1) s = some u ∧
      (u.out.drop s.out.length).length = s.count.toNat ∧
      recordBlock t start fs c (s.count.toNat + 1) s =
        .ok (some (t.writeFrom cur.flatPosition (u.out.drop s.out.length), u))) ∧
  (∀ (t : Track) (start fs : Rat) (c : Instr) (polls : Nat) (s : State) (e : StoreError),
    Cursor.fromTime start fs = .error e → recordBlock t start fs c polls s = .error e)

/-- The container file has a 44-byte header with the fields at the bytes the spec gives, and then every sample of every
block, two bytes each: 44 + byte_length bytes in all (20_memory.md, serialisation and derived sizes). That the rate is a
natural number, and that a size, rate or byte-rate field holds its number modulo 2^32 where it does not fit 32 bits, is
the model's choice (log 18). -/
def Obligations.ContainerFileLayout : Prop :=
  ∀ (t : Track) (rate : Nat), t.wf = true →
    (t.serialize rate).length = 44 + t.byteLength ∧ t.byteLength = 2 * t.samples.length ∧
    (t.serialize rate).take 4 = [0x52, 0x49, 0x46, 0x46] ∧
    ((t.serialize rate).drop 8).take 8 = [0x57, 0x41, 0x56, 0x45, 0x66, 0x6D, 0x74, 0x20] ∧
    ((t.serialize rate).drop 36).take 4 = [0x64, 0x61, 0x74, 0x61] ∧
    ((t.serialize rate).drop 4).take 4 = bytesOfWord (BitVec.ofNat 32 (t.byteLength + 36)) ∧
    ((t.serialize rate).drop 16).take 8 = [16, 0, 0, 0, 1, 0, 1, 0] ∧
    ((t.serialize rate).drop 24).take 4 = bytesOfWord (BitVec.ofNat 32 rate) ∧
    ((t.serialize rate).drop 28).take 4 = bytesOfWord (BitVec.ofNat 32 (2 * rate)) ∧
    ((t.serialize rate).drop 32).take 4 = [2, 0, 16, 0] ∧
    ((t.serialize rate).drop 40).take 4 = bytesOfWord (BitVec.ofNat 32 t.byteLength) ∧
    ∀ k (h : k < t.samples.length),
      ((t.serialize rate).drop (44 + 2 * k)).take 2 =
        [(t.samples[k]).extractLsb' 0 8, (t.samples[k]).extractLsb' 8 8]
end

