-- ==== Sys2Proof/Laws/Decode.lean ====
section
/-! SUPPORT. The fields of a transaction word and of a command word, and what the decoder does with them. -/

namespace Sys2Proof

/-- The bits of a transaction word (30_encoding.md R90). -/
theorem getLsbD_transactionWord (rw : Bool) (idx : SlotIndex) (d : Word) (j : Nat) :
    (transactionWord rw idx d).getLsbD j =
      if j < 32 then d.getLsbD j else if j < 36 then idx.getLsbD (j - 32) else (decide (j = 36) && rw) := by
  have outer := BitVec.getLsbD_append (x := BitVec.ofBool rw ++ idx) (y := d) (i := j)
  have inner := BitVec.getLsbD_append (x := BitVec.ofBool rw) (y := idx) (i := j - 32)
  rw [show transactionWord rw idx d = BitVec.ofBool rw ++ idx ++ d from rfl]
  refine outer.trans ?_
  by_cases h32 : j < 32
  · simp [h32]
  · rw [inner]
    by_cases h36 : j < 36
    · simp [h32, h36, show j - 32 < 4 by omega]
    · simp [h32, h36, show ¬ j - 32 < 4 by omega, BitVec.getLsbD_ofBool, show j - 32 - 4 = 0 ↔ j = 36 by omega]

/-- The bits of a command word (30_encoding.md R93). -/
theorem getLsbD_commandWord (imm16 : Sample) (op : BitVec 8) (j : Nat) :
    (commandWord imm16 op).getLsbD j =
      if j < 8 then op.getLsbD j else if j < 16 then false else imm16.getLsbD (j - 16) := by
  have outer := BitVec.getLsbD_append (x := imm16 ++ 0#8) (y := op) (i := j)
  have inner := BitVec.getLsbD_append (x := imm16) (y := 0#8) (i := j - 8)
  rw [show commandWord imm16 op = imm16 ++ 0#8 ++ op from rfl]
  refine outer.trans ?_
  by_cases h8 : j < 8
  · simp [h8]
  · rw [inner]
    by_cases h16 : j < 16
    · simp [h8, h16, show j - 8 < 8 by omega]
    · simp [h8, h16, show ¬ j - 8 < 8 by omega, show j - 8 - 8 = j - 16 by omega]

@[simp] theorem rwOf_transactionWord (rw : Bool) (idx : SlotIndex) (d : Word) :
    rwOf (transactionWord rw idx d) = rw := by
  simp only [rwOf, getLsbD_transactionWord]
  simp

@[simp] theorem idxOf_transactionWord (rw : Bool) (idx : SlotIndex) (d : Word) :
    idxOf (transactionWord rw idx d) = idx := by
  apply BitVec.eq_of_getLsbD_eq
  intro j hj
  simp only [idxOf, BitVec.getLsbD_extractLsb', getLsbD_transactionWord]
  simp [hj, show 32 + j < 36 by omega]

@[simp] theorem dataOf_transactionWord (rw : Bool) (idx : SlotIndex) (d : Word) :
    dataOf (transactionWord rw idx d) = d := by
  apply BitVec.eq_of_getLsbD_eq
  intro j hj
  simp only [dataOf, BitVec.getLsbD_extractLsb', getLsbD_transactionWord]
  simp [hj]

/-- A transaction word is its three fields (30_encoding.md R90). -/
theorem transactionWord_fields (tw : TransactionWord) : transactionWord (rwOf tw) (idxOf tw) (dataOf tw) = tw := by
  apply BitVec.eq_of_getLsbD_eq
  intro j hj
  simp only [getLsbD_transactionWord, rwOf, idxOf, dataOf, BitVec.getLsbD_extractLsb']
  by_cases h32 : j < 32
  · simp [h32]
  · obtain h | h : j < 36 ∨ j = 36 := by omega
    · simp [h32, h, show j - 32 < 4 by omega, show 32 + (j - 32) = j by omega]
    · simp [h]

@[simp] theorem imm16Of_commandWord (imm16 : Sample) (op : BitVec 8) : imm16Of (commandWord imm16 op) = imm16 := by
  apply BitVec.eq_of_getLsbD_eq
  intro j hj
  simp only [imm16Of, BitVec.getLsbD_extractLsb', getLsbD_commandWord]
  simp [hj, show ¬ 16 + j < 8 by omega]

@[simp] theorem zeroOf_commandWord (imm16 : Sample) (op : BitVec 8) : zeroOf (commandWord imm16 op) = 0 := by
  apply BitVec.eq_of_getLsbD_eq
  intro j hj
  simp only [zeroOf, BitVec.getLsbD_extractLsb', getLsbD_commandWord]
  simp [hj, show 8 + j < 16 by omega]

@[simp] theorem opOf_commandWord (imm16 : Sample) (op : BitVec 8) : opOf (commandWord imm16 op) = op := by
  apply BitVec.eq_of_getLsbD_eq
  intro j hj
  simp only [opOf, BitVec.getLsbD_extractLsb', getLsbD_commandWord]
  simp [hj]

/-- A command word with its `zero` field 0 is its other two fields (30_encoding.md R93). -/
theorem commandWord_fields {cw : Word} (h : zeroOf cw = 0) : commandWord (imm16Of cw) (opOf cw) = cw := by
  apply BitVec.eq_of_getLsbD_eq
  intro j hj
  simp only [getLsbD_commandWord, imm16Of, opOf, BitVec.getLsbD_extractLsb']
  by_cases h8 : j < 8
  · simp [h8]
  · by_cases h16 : j < 16
    · have hz := congrArg (fun z => z.getLsbD (j - 8)) h
      have hj8 : j - 8 < 8 := by omega
      simp only [zeroOf, BitVec.getLsbD_extractLsb', show 8 + (j - 8) = j by omega, hj8] at hz
      have hb : cw.getLsbD j = false := by simpa using hz
      rw [hb]
      simp [h8, h16]
    · simp [h8, h16, show j - 16 < 16 by omega, show 16 + (j - 16) = j by omega]

@[simp] theorem Slot.ofIndex_index (slot : Slot) : Slot.ofIndex slot.index = some slot := by
  cases slot <;> rfl

/-- The slot of an index has that index (10_state.md R32). -/
theorem Slot.index_of_ofIndex {idx : SlotIndex} {slot : Slot} (h : Slot.ofIndex idx = some slot) :
    slot.index = idx := by
  revert h
  cases slot <;> revert idx <;> decide

@[simp] theorem decode_transactionWord_read (slot : Slot) (d : Word) :
    decode (transactionWord false slot.index d) = decodeRead slot := by
  simp [decode]

@[simp] theorem decode_transactionWord_write (slot : Slot) (d : Word) :
    decode (transactionWord true slot.index d) = decodeWrite d slot := by
  simp [decode]

/-- The mask of a register transaction keeps `rw` and `idx` and clears the data (30_encoding.md R95). -/
theorem transactionWord_and_registerMask (rw : Bool) (idx : SlotIndex) (d : Word) :
    transactionWord rw idx d &&& 0x1F00000000 = transactionWord rw idx 0 := by
  apply BitVec.eq_of_getLsbD_eq
  intro j hj
  simp only [BitVec.getLsbD_and, getLsbD_transactionWord]
  interval_cases j <;> simp

/-- The mask of `PASS` keeps all but the immediate (30_encoding.md R96). -/
theorem encodeCommand_and_passMask (imm16 : Sample) (op : BitVec 8) :
    encodeCommand imm16 op &&& 0x1F0000FFFF = encodeCommand 0 op := by
  apply BitVec.eq_of_getLsbD_eq
  intro j hj
  simp only [encodeCommand, encodeWrite, BitVec.getLsbD_and, getLsbD_transactionWord, getLsbD_commandWord]
  interval_cases j <;> simp [Slot.index]

end Sys2Proof
end

