-- ==== Sys2Proof/Laws/State.lean ====
section
/-! SUPPORT. One lemma per field per update of the state: what the field reads after it. -/

namespace Sys2Proof.Machine

/-! ## After `setFreq` -/

@[simp] theorem State.setFreq_freq (s : State) (v : Word) : (s.setFreq v).freq = v := rfl
@[simp] theorem State.setFreq_phase (s : State) (v : Word) : (s.setFreq v).phase = s.phase := rfl
@[simp] theorem State.setFreq_duty (s : State) (v : Word) : (s.setFreq v).duty = s.duty := rfl
@[simp] theorem State.setFreq_count (s : State) (v : Word) : (s.setFreq v).count = s.count := rfl
@[simp] theorem State.setFreq_xin (s : State) (v : Word) : (s.setFreq v).xin = s.xin := rfl
@[simp] theorem State.setFreq_sample (s : State) (v : Word) : (s.setFreq v).sample = s.sample := rfl
@[simp] theorem State.setFreq_errOverrun (s : State) (v : Word) : (s.setFreq v).errOverrun = s.errOverrun := rfl
@[simp] theorem State.setFreq_errIllCmd (s : State) (v : Word) : (s.setFreq v).errIllCmd = s.errIllCmd := rfl
@[simp] theorem State.setFreq_errAddr (s : State) (v : Word) : (s.setFreq v).errAddr = s.errAddr := rfl
@[simp] theorem State.setFreq_out (s : State) (v : Word) : (s.setFreq v).out = s.out := rfl
@[simp] theorem State.setFreq_reads (s : State) (v : Word) : (s.setFreq v).reads = s.reads := rfl
@[simp] theorem State.setFreq_input (s : State) (v : Word) : (s.setFreq v).input = s.input := rfl
@[simp] theorem State.setFreq_qround (s : State) (v : Word) : (s.setFreq v).qround = s.qround := rfl

/-! ## After `setPhase` -/

@[simp] theorem State.setPhase_freq (s : State) (v : Word) : (s.setPhase v).freq = s.freq := rfl
@[simp] theorem State.setPhase_phase (s : State) (v : Word) : (s.setPhase v).phase = v := rfl
@[simp] theorem State.setPhase_duty (s : State) (v : Word) : (s.setPhase v).duty = s.duty := rfl
@[simp] theorem State.setPhase_count (s : State) (v : Word) : (s.setPhase v).count = s.count := rfl
@[simp] theorem State.setPhase_xin (s : State) (v : Word) : (s.setPhase v).xin = s.xin := rfl
@[simp] theorem State.setPhase_sample (s : State) (v : Word) : (s.setPhase v).sample = s.sample := rfl
@[simp] theorem State.setPhase_errOverrun (s : State) (v : Word) : (s.setPhase v).errOverrun = s.errOverrun := rfl
@[simp] theorem State.setPhase_errIllCmd (s : State) (v : Word) : (s.setPhase v).errIllCmd = s.errIllCmd := rfl
@[simp] theorem State.setPhase_errAddr (s : State) (v : Word) : (s.setPhase v).errAddr = s.errAddr := rfl
@[simp] theorem State.setPhase_out (s : State) (v : Word) : (s.setPhase v).out = s.out := rfl
@[simp] theorem State.setPhase_reads (s : State) (v : Word) : (s.setPhase v).reads = s.reads := rfl
@[simp] theorem State.setPhase_input (s : State) (v : Word) : (s.setPhase v).input = s.input := rfl
@[simp] theorem State.setPhase_qround (s : State) (v : Word) : (s.setPhase v).qround = s.qround := rfl

/-! ## After `setDuty` -/

@[simp] theorem State.setDuty_freq (s : State) (v : Word) : (s.setDuty v).freq = s.freq := rfl
@[simp] theorem State.setDuty_phase (s : State) (v : Word) : (s.setDuty v).phase = s.phase := rfl
@[simp] theorem State.setDuty_duty (s : State) (v : Word) : (s.setDuty v).duty = v := rfl
@[simp] theorem State.setDuty_count (s : State) (v : Word) : (s.setDuty v).count = s.count := rfl
@[simp] theorem State.setDuty_xin (s : State) (v : Word) : (s.setDuty v).xin = s.xin := rfl
@[simp] theorem State.setDuty_sample (s : State) (v : Word) : (s.setDuty v).sample = s.sample := rfl
@[simp] theorem State.setDuty_errOverrun (s : State) (v : Word) : (s.setDuty v).errOverrun = s.errOverrun := rfl
@[simp] theorem State.setDuty_errIllCmd (s : State) (v : Word) : (s.setDuty v).errIllCmd = s.errIllCmd := rfl
@[simp] theorem State.setDuty_errAddr (s : State) (v : Word) : (s.setDuty v).errAddr = s.errAddr := rfl
@[simp] theorem State.setDuty_out (s : State) (v : Word) : (s.setDuty v).out = s.out := rfl
@[simp] theorem State.setDuty_reads (s : State) (v : Word) : (s.setDuty v).reads = s.reads := rfl
@[simp] theorem State.setDuty_input (s : State) (v : Word) : (s.setDuty v).input = s.input := rfl
@[simp] theorem State.setDuty_qround (s : State) (v : Word) : (s.setDuty v).qround = s.qround := rfl

/-! ## After `setCount` -/

@[simp] theorem State.setCount_freq (s : State) (v : Word) : (s.setCount v).freq = s.freq := rfl
@[simp] theorem State.setCount_phase (s : State) (v : Word) : (s.setCount v).phase = s.phase := rfl
@[simp] theorem State.setCount_duty (s : State) (v : Word) : (s.setCount v).duty = s.duty := rfl
@[simp] theorem State.setCount_count (s : State) (v : Word) : (s.setCount v).count = v := rfl
@[simp] theorem State.setCount_xin (s : State) (v : Word) : (s.setCount v).xin = s.xin := rfl
@[simp] theorem State.setCount_sample (s : State) (v : Word) : (s.setCount v).sample = s.sample := rfl
@[simp] theorem State.setCount_errOverrun (s : State) (v : Word) : (s.setCount v).errOverrun = s.errOverrun := rfl
@[simp] theorem State.setCount_errIllCmd (s : State) (v : Word) : (s.setCount v).errIllCmd = s.errIllCmd := rfl
@[simp] theorem State.setCount_errAddr (s : State) (v : Word) : (s.setCount v).errAddr = s.errAddr := rfl
@[simp] theorem State.setCount_out (s : State) (v : Word) : (s.setCount v).out = s.out := rfl
@[simp] theorem State.setCount_reads (s : State) (v : Word) : (s.setCount v).reads = s.reads := rfl
@[simp] theorem State.setCount_input (s : State) (v : Word) : (s.setCount v).input = s.input := rfl
@[simp] theorem State.setCount_qround (s : State) (v : Word) : (s.setCount v).qround = s.qround := rfl

/-! ## After `setXin` -/

@[simp] theorem State.setXin_freq (s : State) (v : Word) : (s.setXin v).freq = s.freq := rfl
@[simp] theorem State.setXin_phase (s : State) (v : Word) : (s.setXin v).phase = s.phase := rfl
@[simp] theorem State.setXin_duty (s : State) (v : Word) : (s.setXin v).duty = s.duty := rfl
@[simp] theorem State.setXin_count (s : State) (v : Word) : (s.setXin v).count = s.count := rfl
@[simp] theorem State.setXin_xin (s : State) (v : Word) : (s.setXin v).xin = v := rfl
@[simp] theorem State.setXin_sample (s : State) (v : Word) : (s.setXin v).sample = s.sample := rfl
@[simp] theorem State.setXin_errOverrun (s : State) (v : Word) : (s.setXin v).errOverrun = s.errOverrun := rfl
@[simp] theorem State.setXin_errIllCmd (s : State) (v : Word) : (s.setXin v).errIllCmd = s.errIllCmd := rfl
@[simp] theorem State.setXin_errAddr (s : State) (v : Word) : (s.setXin v).errAddr = s.errAddr := rfl
@[simp] theorem State.setXin_out (s : State) (v : Word) : (s.setXin v).out = s.out := rfl
@[simp] theorem State.setXin_reads (s : State) (v : Word) : (s.setXin v).reads = s.reads := rfl
@[simp] theorem State.setXin_input (s : State) (v : Word) : (s.setXin v).input = s.input := rfl
@[simp] theorem State.setXin_qround (s : State) (v : Word) : (s.setXin v).qround = s.qround := rfl

/-! ## After `clearFlags` -/

@[simp] theorem State.clearFlags_freq (s : State) : (s.clearFlags).freq = s.freq := rfl
@[simp] theorem State.clearFlags_phase (s : State) : (s.clearFlags).phase = s.phase := rfl
@[simp] theorem State.clearFlags_duty (s : State) : (s.clearFlags).duty = s.duty := rfl
@[simp] theorem State.clearFlags_count (s : State) : (s.clearFlags).count = s.count := rfl
@[simp] theorem State.clearFlags_xin (s : State) : (s.clearFlags).xin = s.xin := rfl
@[simp] theorem State.clearFlags_sample (s : State) : (s.clearFlags).sample = s.sample := rfl
@[simp] theorem State.clearFlags_errOverrun (s : State) : (s.clearFlags).errOverrun = false := rfl
@[simp] theorem State.clearFlags_errIllCmd (s : State) : (s.clearFlags).errIllCmd = false := rfl
@[simp] theorem State.clearFlags_errAddr (s : State) : (s.clearFlags).errAddr = false := rfl
@[simp] theorem State.clearFlags_out (s : State) : (s.clearFlags).out = s.out := rfl
@[simp] theorem State.clearFlags_reads (s : State) : (s.clearFlags).reads = s.reads := rfl
@[simp] theorem State.clearFlags_input (s : State) : (s.clearFlags).input = s.input := rfl
@[simp] theorem State.clearFlags_qround (s : State) : (s.clearFlags).qround = s.qround := rfl

/-! ## After `emit` -/

@[simp] theorem State.emit_freq (s : State) (v : Sample) : (s.emit v).freq = s.freq := rfl
@[simp] theorem State.emit_phase (s : State) (v : Sample) : (s.emit v).phase = s.phase := rfl
@[simp] theorem State.emit_duty (s : State) (v : Sample) : (s.emit v).duty = s.duty := rfl
@[simp] theorem State.emit_count (s : State) (v : Sample) : (s.emit v).count = s.count := rfl
@[simp] theorem State.emit_xin (s : State) (v : Sample) : (s.emit v).xin = s.xin := rfl
@[simp] theorem State.emit_sample (s : State) (v : Sample) : (s.emit v).sample = v := rfl
@[simp] theorem State.emit_errOverrun (s : State) (v : Sample) : (s.emit v).errOverrun = s.errOverrun := rfl
@[simp] theorem State.emit_errIllCmd (s : State) (v : Sample) : (s.emit v).errIllCmd = s.errIllCmd := rfl
@[simp] theorem State.emit_errAddr (s : State) (v : Sample) : (s.emit v).errAddr = s.errAddr := rfl
@[simp] theorem State.emit_out (s : State) (v : Sample) : (s.emit v).out = s.out ++ [v] := rfl
@[simp] theorem State.emit_reads (s : State) (v : Sample) : (s.emit v).reads = s.reads := rfl
@[simp] theorem State.emit_input (s : State) (v : Sample) : (s.emit v).input = s.input := rfl
@[simp] theorem State.emit_qround (s : State) (v : Sample) : (s.emit v).qround = s.qround := rfl

/-! ## After `respond` -/

@[simp] theorem State.respond_freq (s : State) (w : Word) : (s.respond w).freq = s.freq := rfl
@[simp] theorem State.respond_phase (s : State) (w : Word) : (s.respond w).phase = s.phase := rfl
@[simp] theorem State.respond_duty (s : State) (w : Word) : (s.respond w).duty = s.duty := rfl
@[simp] theorem State.respond_count (s : State) (w : Word) : (s.respond w).count = s.count := rfl
@[simp] theorem State.respond_xin (s : State) (w : Word) : (s.respond w).xin = s.xin := rfl
@[simp] theorem State.respond_sample (s : State) (w : Word) : (s.respond w).sample = s.sample := rfl
@[simp] theorem State.respond_errOverrun (s : State) (w : Word) : (s.respond w).errOverrun = s.errOverrun := rfl
@[simp] theorem State.respond_errIllCmd (s : State) (w : Word) : (s.respond w).errIllCmd = s.errIllCmd := rfl
@[simp] theorem State.respond_errAddr (s : State) (w : Word) : (s.respond w).errAddr = s.errAddr := rfl
@[simp] theorem State.respond_out (s : State) (w : Word) : (s.respond w).out = s.out := rfl
@[simp] theorem State.respond_reads (s : State) (w : Word) : (s.respond w).reads = s.reads ++ [w] := rfl
@[simp] theorem State.respond_input (s : State) (w : Word) : (s.respond w).input = s.input := rfl
@[simp] theorem State.respond_qround (s : State) (w : Word) : (s.respond w).qround = s.qround := rfl

/-! ## After `blockReset` -/

@[simp] theorem State.blockReset_freq (s : State) : (s.blockReset).freq = 0 := rfl
@[simp] theorem State.blockReset_phase (s : State) : (s.blockReset).phase = 0 := rfl
@[simp] theorem State.blockReset_duty (s : State) : (s.blockReset).duty = 0 := rfl
@[simp] theorem State.blockReset_count (s : State) : (s.blockReset).count = 0 := rfl
@[simp] theorem State.blockReset_xin (s : State) : (s.blockReset).xin = 0 := rfl
@[simp] theorem State.blockReset_sample (s : State) : (s.blockReset).sample = 0 := rfl
@[simp] theorem State.blockReset_errOverrun (s : State) : (s.blockReset).errOverrun = false := rfl
@[simp] theorem State.blockReset_errIllCmd (s : State) : (s.blockReset).errIllCmd = false := rfl
@[simp] theorem State.blockReset_errAddr (s : State) : (s.blockReset).errAddr = false := rfl
@[simp] theorem State.blockReset_out (s : State) : (s.blockReset).out = s.out := rfl
@[simp] theorem State.blockReset_reads (s : State) : (s.blockReset).reads = s.reads := rfl
@[simp] theorem State.blockReset_input (s : State) : (s.blockReset).input = s.input := rfl
@[simp] theorem State.blockReset_qround (s : State) : (s.blockReset).qround = s.qround := rfl

/-! ## After `dropEvent` -/

@[simp] theorem State.dropEvent_freq (s : State) : (s.dropEvent).freq = s.freq := rfl
@[simp] theorem State.dropEvent_phase (s : State) : (s.dropEvent).phase = s.phase := rfl
@[simp] theorem State.dropEvent_duty (s : State) : (s.dropEvent).duty = s.duty := rfl
@[simp] theorem State.dropEvent_count (s : State) : (s.dropEvent).count = s.count := rfl
@[simp] theorem State.dropEvent_xin (s : State) : (s.dropEvent).xin = s.xin := rfl
@[simp] theorem State.dropEvent_sample (s : State) : (s.dropEvent).sample = s.sample := rfl
@[simp] theorem State.dropEvent_errOverrun (s : State) : (s.dropEvent).errOverrun = s.errOverrun := rfl
@[simp] theorem State.dropEvent_errIllCmd (s : State) : (s.dropEvent).errIllCmd = s.errIllCmd := rfl
@[simp] theorem State.dropEvent_errAddr (s : State) : (s.dropEvent).errAddr = s.errAddr := rfl
@[simp] theorem State.dropEvent_out (s : State) : (s.dropEvent).out = s.out := rfl
@[simp] theorem State.dropEvent_reads (s : State) : (s.dropEvent).reads = s.reads := rfl
@[simp] theorem State.dropEvent_input (s : State) : (s.dropEvent).input = s.input.tail := rfl
@[simp] theorem State.dropEvent_qround (s : State) : (s.dropEvent).qround = s.qround := rfl

/-! ## After `present` -/

@[simp] theorem State.present_freq (s : State) (e : HostEvent) : (s.present e).freq = s.freq := rfl
@[simp] theorem State.present_phase (s : State) (e : HostEvent) : (s.present e).phase = s.phase := rfl
@[simp] theorem State.present_duty (s : State) (e : HostEvent) : (s.present e).duty = s.duty := rfl
@[simp] theorem State.present_count (s : State) (e : HostEvent) : (s.present e).count = s.count := rfl
@[simp] theorem State.present_xin (s : State) (e : HostEvent) : (s.present e).xin = s.xin := rfl
@[simp] theorem State.present_sample (s : State) (e : HostEvent) : (s.present e).sample = s.sample := rfl
@[simp] theorem State.present_errOverrun (s : State) (e : HostEvent) : (s.present e).errOverrun = s.errOverrun := rfl
@[simp] theorem State.present_errIllCmd (s : State) (e : HostEvent) : (s.present e).errIllCmd = s.errIllCmd := rfl
@[simp] theorem State.present_errAddr (s : State) (e : HostEvent) : (s.present e).errAddr = s.errAddr := rfl
@[simp] theorem State.present_out (s : State) (e : HostEvent) : (s.present e).out = s.out := rfl
@[simp] theorem State.present_reads (s : State) (e : HostEvent) : (s.present e).reads = s.reads := rfl
@[simp] theorem State.present_input (s : State) (e : HostEvent) : (s.present e).input = e :: s.input := rfl
@[simp] theorem State.present_qround (s : State) (e : HostEvent) : (s.present e).qround = s.qround := rfl

/-! ## After `withInput` -/

@[simp] theorem State.withInput_freq (s : State) (es : List HostEvent) : (s.withInput es).freq = s.freq := rfl
@[simp] theorem State.withInput_phase (s : State) (es : List HostEvent) : (s.withInput es).phase = s.phase := rfl
@[simp] theorem State.withInput_duty (s : State) (es : List HostEvent) : (s.withInput es).duty = s.duty := rfl
@[simp] theorem State.withInput_count (s : State) (es : List HostEvent) : (s.withInput es).count = s.count := rfl
@[simp] theorem State.withInput_xin (s : State) (es : List HostEvent) : (s.withInput es).xin = s.xin := rfl
@[simp] theorem State.withInput_sample (s : State) (es : List HostEvent) : (s.withInput es).sample = s.sample := rfl
@[simp] theorem State.withInput_errOverrun (s : State) (es : List HostEvent) : (s.withInput es).errOverrun = s.errOverrun := rfl
@[simp] theorem State.withInput_errIllCmd (s : State) (es : List HostEvent) : (s.withInput es).errIllCmd = s.errIllCmd := rfl
@[simp] theorem State.withInput_errAddr (s : State) (es : List HostEvent) : (s.withInput es).errAddr = s.errAddr := rfl
@[simp] theorem State.withInput_out (s : State) (es : List HostEvent) : (s.withInput es).out = s.out := rfl
@[simp] theorem State.withInput_reads (s : State) (es : List HostEvent) : (s.withInput es).reads = s.reads := rfl
@[simp] theorem State.withInput_input (s : State) (es : List HostEvent) : (s.withInput es).input = es := rfl
@[simp] theorem State.withInput_qround (s : State) (es : List HostEvent) : (s.withInput es).qround = s.qround := rfl

/-! ## Which cause is which -/

@[simp] theorem cause_overrun_beq_overrun : (Cause.overrun == Cause.overrun) = true := rfl
@[simp] theorem cause_overrun_beq_illCmd : (Cause.overrun == Cause.illCmd) = false := rfl
@[simp] theorem cause_overrun_beq_addrErr : (Cause.overrun == Cause.addrErr) = false := rfl
@[simp] theorem cause_illCmd_beq_overrun : (Cause.illCmd == Cause.overrun) = false := rfl
@[simp] theorem cause_illCmd_beq_illCmd : (Cause.illCmd == Cause.illCmd) = true := rfl
@[simp] theorem cause_illCmd_beq_addrErr : (Cause.illCmd == Cause.addrErr) = false := rfl
@[simp] theorem cause_addrErr_beq_overrun : (Cause.addrErr == Cause.overrun) = false := rfl
@[simp] theorem cause_addrErr_beq_illCmd : (Cause.addrErr == Cause.illCmd) = false := rfl
@[simp] theorem cause_addrErr_beq_addrErr : (Cause.addrErr == Cause.addrErr) = true := rfl

/-! ## After `setFlag` and `raise` -/

@[simp] theorem State.setFlag_freq (s : State) (c : Cause) : (s.setFlag c).freq = s.freq := by
  cases c <;> rfl
@[simp] theorem State.setFlag_phase (s : State) (c : Cause) : (s.setFlag c).phase = s.phase := by
  cases c <;> rfl
@[simp] theorem State.setFlag_duty (s : State) (c : Cause) : (s.setFlag c).duty = s.duty := by
  cases c <;> rfl
@[simp] theorem State.setFlag_count (s : State) (c : Cause) : (s.setFlag c).count = s.count := by
  cases c <;> rfl
@[simp] theorem State.setFlag_xin (s : State) (c : Cause) : (s.setFlag c).xin = s.xin := by
  cases c <;> rfl
@[simp] theorem State.setFlag_sample (s : State) (c : Cause) : (s.setFlag c).sample = s.sample := by
  cases c <;> rfl
@[simp] theorem State.setFlag_errOverrun (s : State) (c : Cause) :
    (s.setFlag c).errOverrun = (s.errOverrun || c == .overrun) := by
  cases c <;> simp [State.setFlag, State.setFlag]
@[simp] theorem State.setFlag_errIllCmd (s : State) (c : Cause) :
    (s.setFlag c).errIllCmd = (s.errIllCmd || c == .illCmd) := by
  cases c <;> simp [State.setFlag, State.setFlag]
@[simp] theorem State.setFlag_errAddr (s : State) (c : Cause) :
    (s.setFlag c).errAddr = (s.errAddr || c == .addrErr) := by
  cases c <;> simp [State.setFlag, State.setFlag]
@[simp] theorem State.setFlag_out (s : State) (c : Cause) : (s.setFlag c).out = s.out := by
  cases c <;> rfl
@[simp] theorem State.setFlag_reads (s : State) (c : Cause) : (s.setFlag c).reads = s.reads := by
  cases c <;> rfl
@[simp] theorem State.setFlag_input (s : State) (c : Cause) : (s.setFlag c).input = s.input := by
  cases c <;> rfl
@[simp] theorem State.setFlag_qround (s : State) (c : Cause) : (s.setFlag c).qround = s.qround := by
  cases c <;> rfl

@[simp] theorem State.raise_freq (s : State) (c : Cause) : (s.raise c).freq = s.freq := by
  cases c <;> rfl
@[simp] theorem State.raise_phase (s : State) (c : Cause) : (s.raise c).phase = s.phase := by
  cases c <;> rfl
@[simp] theorem State.raise_duty (s : State) (c : Cause) : (s.raise c).duty = s.duty := by
  cases c <;> rfl
@[simp] theorem State.raise_count (s : State) (c : Cause) : (s.raise c).count = s.count := by
  cases c <;> rfl
@[simp] theorem State.raise_xin (s : State) (c : Cause) : (s.raise c).xin = s.xin := by
  cases c <;> rfl
@[simp] theorem State.raise_sample (s : State) (c : Cause) : (s.raise c).sample = s.sample := by
  cases c <;> rfl
@[simp] theorem State.raise_errOverrun (s : State) (c : Cause) :
    (s.raise c).errOverrun = (s.errOverrun || c == .overrun) := by
  cases c <;> simp [State.raise, State.setFlag]
@[simp] theorem State.raise_errIllCmd (s : State) (c : Cause) :
    (s.raise c).errIllCmd = (s.errIllCmd || c == .illCmd) := by
  cases c <;> simp [State.raise, State.setFlag]
@[simp] theorem State.raise_errAddr (s : State) (c : Cause) :
    (s.raise c).errAddr = (s.errAddr || c == .addrErr) := by
  cases c <;> simp [State.raise, State.setFlag]
@[simp] theorem State.raise_out (s : State) (c : Cause) : (s.raise c).out = s.out := by
  cases c <;> rfl
@[simp] theorem State.raise_reads (s : State) (c : Cause) : (s.raise c).reads = s.reads := by
  cases c <;> rfl
@[simp] theorem State.raise_input (s : State) (c : Cause) : (s.raise c).input = s.input := by
  cases c <;> rfl
@[simp] theorem State.raise_qround (s : State) (c : Cause) : (s.raise c).qround = s.qround := by
  cases c <;> rfl

/-! ## At reset -/

@[simp] theorem State.reset_freq : State.reset.freq = 0 := rfl
@[simp] theorem State.reset_phase : State.reset.phase = 0 := rfl
@[simp] theorem State.reset_duty : State.reset.duty = 0 := rfl
@[simp] theorem State.reset_count : State.reset.count = 0 := rfl
@[simp] theorem State.reset_xin : State.reset.xin = 0 := rfl
@[simp] theorem State.reset_sample : State.reset.sample = 0 := rfl
@[simp] theorem State.reset_errOverrun : State.reset.errOverrun = false := rfl
@[simp] theorem State.reset_errIllCmd : State.reset.errIllCmd = false := rfl
@[simp] theorem State.reset_errAddr : State.reset.errAddr = false := rfl
@[simp] theorem State.reset_out : State.reset.out = [] := rfl
@[simp] theorem State.reset_reads : State.reset.reads = [] := rfl
@[simp] theorem State.reset_input : State.reset.input = [] := rfl
@[simp] theorem State.reset_qround : State.reset.qround = .trunc := rfl

end Sys2Proof.Machine
end

