-- ==== Sys2Proof/Laws/Ops.lean ====
section
/-! SUPPORT. What each shared operation can do, said once: the lemmas that later proofs cite instead of unfolding it. -/

namespace Sys2Proof.Machine

/-- `raise` sets the flag of its cause and nothing else (60_exceptions.md R203). -/
theorem State.raise_eq (s : State) (c : Cause) :
    s.raise c =
      { s with
        errOverrun := s.errOverrun || c == .overrun
        errIllCmd := s.errIllCmd || c == .illCmd
        errAddr := s.errAddr || c == .addrErr } := by
  cases c <;> cases s <;> simp [State.raise, State.setFlag]

/-- A rejected write sets the flag of its cause and nothing else (40_register_access.md R133). -/
@[simp] theorem State.reject_write (s : State) (c : Cause) : s.reject true c = s.raise c := rfl

/-- A rejected read sets the flag of its cause and returns 0 (40_register_access.md R133). -/
@[simp] theorem State.reject_read (s : State) (c : Cause) : s.reject false c = (s.raise c).respond 0 := rfl

/-- An oscillator command at `COUNT` = 0 is rejected with `Overrun` (41_oscillator.md R146). -/
theorem State.oscCommand_overrun {s : State} (h : s.count = 0) (a : Int) (k : Nat) :
    s.oscCommand a k = { s with errOverrun := true } := by
  simp [State.oscCommand, h, State.raise, State.setFlag]

/-- An oscillator command at `COUNT` > 0 emits, advances the phase and counts (41_oscillator.md R142). -/
theorem State.oscCommand_executes {s : State} (h : s.count ≠ 0) (a : Int) (k : Nat) :
    s.oscCommand a k =
      { s with
        sample := quantize s.qround a k
        out := s.out ++ [quantize s.qround a k]
        phase := s.phase + s.freq
        count := s.count - 1 } := by
  rw [State.oscCommand, if_neg h]
  rfl

/-- Everything an oscillator command can do. -/
theorem State.oscCommand_cases (s : State) (a : Int) (k : Nat) :
    (s.count = 0 ∧ s.oscCommand a k = { s with errOverrun := true }) ∨
    (s.count ≠ 0 ∧ s.oscCommand a k =
      { s with
        sample := quantize s.qround a k
        out := s.out ++ [quantize s.qround a k]
        phase := s.phase + s.freq
        count := s.count - 1 }) := by
  by_cases h : s.count = 0
  · exact .inl ⟨h, State.oscCommand_overrun h a k⟩
  · exact .inr ⟨h, State.oscCommand_executes h a k⟩

/-- The reset of the block leaves the record, the host's side and the configuration (70_reset_and_hazards.md R232). -/
theorem State.blockReset_eq (s : State) :
    s.blockReset = { State.reset with out := s.out, reads := s.reads, input := s.input, qround := s.qround } := rfl

/-- The meaning of an oscillator command is the common body on its waveform value (41_oscillator.md R142). -/
theorem exec_oscillator {i : Instr} (h : i.isOscillator = true) (s : State) :
    ∃ a k, waveformValue i s.phase s.duty = some (a, k) ∧ exec i s = .next (s.oscCommand a k) := by
  cases i <;> first | exact ⟨_, _, rfl, rfl⟩ | simp [Instr.isOscillator] at h

end Sys2Proof.Machine
end

