-- ==== Sys2Proof/Laws/Step.lean ====
section
/-! SUPPORT. Everything one step can do, said once. -/

namespace Sys2Proof.Machine

@[simp] theorem step_of_no_input {s : State} (h : s.input = []) : step s = .next s := by
  simp [step, h, idle]

@[simp] theorem step_of_event {s : State} {e : HostEvent} {es : List HostEvent} (h : s.input = e :: es) :
    step s = takeEvent e s.dropEvent := by
  simp [step, h]

/-- Everything a step that goes on can do: hold, reset, execute an operation, or reject a word. -/
theorem step_cases {s t : State} (h : step s = .next t) :
    (s.input = [] ∧ t = s) ∨
    (∃ es, s.input = .rst :: es ∧ t = s.dropEvent.blockReset) ∨
    (∃ tw es i, s.input = .transaction tw :: es ∧ decode tw = .instr i ∧ exec i s.dropEvent = .next t) ∨
    (∃ tw es c, s.input = .transaction tw :: es ∧ decode tw = .illegal c ∧ t = s.dropEvent.reject (rwOf tw) c) := by
  rcases hin : s.input with _ | ⟨e, es⟩
  · rw [step_of_no_input hin] at h
    cases h
    exact .inl ⟨rfl, rfl⟩
  · rw [step_of_event hin] at h
    cases e with
    | rst =>
      simp only [takeEvent] at h
      cases h
      exact .inr (.inl ⟨es, rfl, rfl⟩)
    | transaction tw =>
      simp only [takeEvent, transact] at h
      rcases hd : decode tw with i | c <;> rw [hd] at h
      · exact .inr (.inr (.inl ⟨tw, es, i, rfl, hd, h⟩))
      · cases h
        exact .inr (.inr (.inr ⟨tw, es, c, rfl, hd, rfl⟩))

@[simp] theorem run_zero (s : State) : Host.Core.run Sys2Proof.core 0 s = .next s := rfl

/-- A run of k + 1 steps is one step and then a run of k (70_reset_and_hazards.md R242). -/
theorem run_succ {s t : State} (h : step s = .next t) (k : Nat) :
    Host.Core.run Sys2Proof.core (k + 1) s = Host.Core.run Sys2Proof.core k t := by
  have hc : Host.Core.step Sys2Proof.core s = .next t := h
  have hr := Host.Core.run.eq_2 Sys2Proof.core s k
  rw [hc] at hr
  exact hr

end Sys2Proof.Machine
end

