-- ==== Sys2Proof/Laws/Host.lean ====
section
/-! SUPPORT. What the host's poll does and what one round of its loops does, said once. -/

namespace Sys2Proof.Machine

/-- Bit 0 of the `STATUS` word is `DONE` (10_state.md R38). -/
theorem State.statusWord_bit0 (s : State) : s.statusWord.getLsbD 0 = s.done := by
  have h := BitVec.getLsbD_append
    (x := (0 : BitVec 28) ++ BitVec.ofBool s.errAddr ++ BitVec.ofBool s.errIllCmd ++ BitVec.ofBool s.errOverrun)
    (y := BitVec.ofBool s.done) (i := 0)
  exact h.trans (by simp)

/-- A poll answers `DONE` and records one word; nothing else changes (30_encoding.md R102). -/
theorem pollDone_eq (s : State) : pollDone s = some (s.done, s.respond s.statusWord) := by
  have h : issue (encode .rdStatus) s = some (s.respond s.statusWord) := by
    rw [issue, step_of_event (e := .transaction (encode .rdStatus)) (es := s.input) rfl]
    rfl
  simpa [pollDone, h, lastReadDone, State.respond] using State.statusWord_bit0 s

/-- A polling loop over a finished source ends at once. -/
theorem untilDoneHost_done {s : State} (h : s.done = true) (body : State → Option State) (polls : Nat) :
    untilDoneHost body (polls + 1) s = some (s.respond s.statusWord) := by
  simp [untilDoneHost, pollDone_eq, h]

/-- A polling loop over an unfinished source issues its body and goes on. -/
theorem untilDoneHost_next {s u : State} {body : State → Option State} (h : s.done = false)
    (hb : body (s.respond s.statusWord) = some u) (polls : Nat) :
    untilDoneHost body (polls + 1) s = untilDoneHost body polls u := by
  simp [untilDoneHost, pollDone_eq, h, hb]

/-- A recording of a finished source writes nothing (20_memory.md R76). -/
theorem recordLoop_done {σ : Type} {done : σ → Option (Bool × σ)} {s s' : σ} (h : done s = some (true, s'))
    (mode : QRound) (next : σ → Option (SourceSample × σ)) (polls : Nat) (c : Cursor) (t : Track) :
    Track.recordLoop mode done next (polls + 1) c t s = some (t, s') := by
  simp [Track.recordLoop, h]

/-- One round of a recording: write the converted sample at the cursor and advance it by 1 (20_memory.md R76). -/
theorem recordLoop_next {σ : Type} {done : σ → Option (Bool × σ)} {next : σ → Option (SourceSample × σ)}
    {s s' s'' : σ} {x : SourceSample} (h : done s = some (false, s')) (hn : next s' = some (x, s''))
    (mode : QRound) (polls : Nat) (c : Cursor) (t : Track) :
    Track.recordLoop mode done next (polls + 1) c t s =
      Track.recordLoop mode done next polls c.succ (t.write c.flatPosition (x.convert mode)) s'' := by
  simp [Track.recordLoop, h, hn]

end Sys2Proof.Machine
end

