-- ==== Sys2Proof/Laws/Numbers.lean ====
section
/-! SUPPORT. What the quantizer and the waveform functions give, said once. -/

namespace Sys2Proof.Machine

@[simp] theorem rnd_trunc (a : Int) (d : Nat) : rnd .trunc a d = rndTrunc a (2 ^ d) := rfl

@[simp] theorem rnd_nearestAway (a : Int) (d : Nat) : rnd .nearestAway a d = rndNearestAway a (2 ^ d) := rfl

@[simp] theorem rnd_nearestEven (a : Int) (d : Nat) : rnd .nearestEven a d = rndNearestEven a (2 ^ d) := rfl

/-- Scaling by `2^12` is exact up to 12 fraction bits (42_quantizer.md R170). -/
theorem scaled_exact (mode : QRound) (a : Int) {k : Nat} (h : k ≤ 12) :
    scaled mode a k = a * 2 ^ (12 - k) := by
  simp [scaled, h]

/-- Above 12 fraction bits one division by `2^(k−12)` is rounded (42_quantizer.md R170). -/
theorem scaled_rounded (mode : QRound) (a : Int) {k : Nat} (h : 12 < k) :
    scaled mode a k = rnd mode a (k - 12) := by
  have : ¬ k ≤ 12 := by omega
  simp [scaled, this]

/-- The word of an integer has that value modulo `2^16` (42_quantizer.md R172). -/
theorem signed_wrap16 (z : Int) : signed (wrap16 z) = z.bmod (2 ^ 16) := by
  simp [signed, wrap16]

/-- Wrapping changes nothing on a 16-bit signed integer (00_scope.md R8). -/
theorem signed_wrap16_of_fits {z : Int} (lo : -32768 ≤ z) (hi : z < 32768) : signed (wrap16 z) = z := by
  rw [signed_wrap16]
  simp only [Int.bmod_def]
  omega

end Sys2Proof.Machine
end

