-- ==== Sys2Proof/Laws/PerInstr.lean ====
section
/-! SUPPORT. Per operation: the encoder's word selects the operation's row of the opcode table (30_encoding.md R95, R96). -/

namespace Sys2Proof.Laws

/-- The encoded word, masked, is the row's pattern. -/
def RowSelectsEncoding.Statement (i : Instr) : Prop := i.row.selects (encode i)

theorem RowSelectsEncoding.rdFreq : RowSelectsEncoding.Statement .rdFreq := rfl

theorem RowSelectsEncoding.rdPhase : RowSelectsEncoding.Statement .rdPhase := rfl

theorem RowSelectsEncoding.rdDuty : RowSelectsEncoding.Statement .rdDuty := rfl

theorem RowSelectsEncoding.rdCount : RowSelectsEncoding.Statement .rdCount := rfl

theorem RowSelectsEncoding.rdXin : RowSelectsEncoding.Statement .rdXin := rfl

theorem RowSelectsEncoding.rdSample : RowSelectsEncoding.Statement .rdSample := rfl

theorem RowSelectsEncoding.rdStatus : RowSelectsEncoding.Statement .rdStatus := rfl

theorem RowSelectsEncoding.wrFreq (data : Word) : RowSelectsEncoding.Statement (.wrFreq data) :=
  transactionWord_and_registerMask _ _ data

theorem RowSelectsEncoding.wrPhase (data : Word) : RowSelectsEncoding.Statement (.wrPhase data) :=
  transactionWord_and_registerMask _ _ data

theorem RowSelectsEncoding.wrDuty (data : Word) : RowSelectsEncoding.Statement (.wrDuty data) :=
  transactionWord_and_registerMask _ _ data

theorem RowSelectsEncoding.wrCount (data : Word) : RowSelectsEncoding.Statement (.wrCount data) :=
  transactionWord_and_registerMask _ _ data

theorem RowSelectsEncoding.wrXin (data : Word) : RowSelectsEncoding.Statement (.wrXin data) :=
  transactionWord_and_registerMask _ _ data

theorem RowSelectsEncoding.nop : RowSelectsEncoding.Statement .nop := rfl

theorem RowSelectsEncoding.sine : RowSelectsEncoding.Statement .sine := rfl

theorem RowSelectsEncoding.ramp : RowSelectsEncoding.Statement .ramp := rfl

theorem RowSelectsEncoding.tri : RowSelectsEncoding.Statement .tri := rfl

theorem RowSelectsEncoding.pwm : RowSelectsEncoding.Statement .pwm := rfl

theorem RowSelectsEncoding.qx : RowSelectsEncoding.Statement .qx := rfl

theorem RowSelectsEncoding.pass (imm16 : Sample) : RowSelectsEncoding.Statement (.pass imm16) :=
  encodeCommand_and_passMask imm16 6

theorem RowSelectsEncoding.reset : RowSelectsEncoding.Statement .reset := rfl

end Sys2Proof.Laws
end

