-- ==== Sys2Proof/Tests/Slice0.lean ====
section
/-! SUPPORT. The model's own tests: what well-formedness refuses, one written-out word for each operation, at most two
small steps for each operation with values from 95_test_vectors.md, and for every obligation with hypotheses a concrete
instance that meets them (`witness_…`, by the obligation's name). Words are copied from 30_encoding.md R95 and R96 or
from 95_test_vectors.md part 2.1. -/

namespace Sys2Proof.Tests

open Sys2Proof.Machine

/-! ## Well-formedness: each check refuses an ill-formed term (30_encoding.md R101) -/

theorem test_wf_no_write_of_sample : (AsmLine.wr .sample 0).wellFormed = false := by decide
theorem test_wf_no_write_of_status : (AsmLine.wr .status 0).wellFormed = false := by decide
theorem test_wf_no_write_line_of_cmd : (AsmLine.wr .cmd 1).wellFormed = false := by decide
theorem test_wf_write_value_too_large : (AsmLine.wr .freq (2 ^ 32)).wellFormed = false := by decide
theorem test_wf_write_value_too_small : (AsmLine.wr .freq (-2 ^ 31 - 1)).wellFormed = false := by decide
theorem test_wf_no_read_of_cmd : (AsmLine.rd .cmd).wellFormed = false := by decide
theorem test_wf_pass_too_large : (AsmLine.pass 65536).wellFormed = false := by decide
theorem test_wf_raw_rw : (AsmLine.raw 2 0 0).wellFormed = false := by decide
theorem test_wf_raw_idx : (AsmLine.raw 0 16 0).wellFormed = false := by decide
theorem test_wf_raw_data : (AsmLine.raw 0 0 (2 ^ 32)).wellFormed = false := by decide
theorem test_wf_program_operands :
    (HostProgram.tone (2 ^ 32) 1).wellFormed = false ∧ (HostProgram.tone 1 (2 ^ 32)).wellFormed = false ∧
    (HostProgram.quant (2 ^ 32)).wellFormed = false ∧
    (HostProgram.rep 2 (.line (.rd .cmd))).wellFormed = false ∧
    (HostProgram.untilDone (.line (.rd .cmd))).wellFormed = false := by decide
theorem test_wf_accepts :
    (AsmLine.wr .xin (-1)).wellFormed = true ∧ (AsmLine.pass (-1)).wellFormed = true ∧
    (AsmLine.raw 1 15 (2 ^ 32 - 1)).wellFormed = true := by decide

/-! ## Decoding: one written-out word for each operation (30_encoding.md R95, R96; 95_test_vectors.md 2.1) -/

theorem test_decode_rdFreq : decode 0x00FFFFFFFF = .instr .rdFreq := by decide
theorem test_decode_rdPhase : decode 0x0100000000 = .instr .rdPhase := by decide
theorem test_decode_rdDuty : decode 0x0200000000 = .instr .rdDuty := by decide
theorem test_decode_rdCount : decode 0x0300000000 = .instr .rdCount := by decide
theorem test_decode_rdXin : decode 0x0412345678 = .instr .rdXin := by decide
theorem test_decode_rdSample : decode 0x0600000000 = .instr .rdSample := by decide
theorem test_decode_rdStatus : decode 0x0700000000 = .instr .rdStatus := by decide
theorem test_decode_wrFreq : decode 0x1010000000 = .instr (.wrFreq 0x10000000) := by decide
theorem test_decode_wrPhase : decode 0x1140000000 = .instr (.wrPhase 0x40000000) := by decide
theorem test_decode_wrDuty : decode 0x1280000000 = .instr (.wrDuty 0x80000000) := by decide
theorem test_decode_wrCount : decode 0x1300001F40 = .instr (.wrCount 8000) := by decide
theorem test_decode_wrXin : decode 0x14FF000000 = .instr (.wrXin 0xFF000000) := by decide
theorem test_decode_nop : decode 0x1500000000 = .instr .nop := by decide
theorem test_decode_sine : decode 0x1500000001 = .instr .sine := by decide
theorem test_decode_ramp : decode 0x1500000002 = .instr .ramp := by decide
theorem test_decode_tri : decode 0x1500000003 = .instr .tri := by decide
theorem test_decode_pwm : decode 0x1500000004 = .instr .pwm := by decide
theorem test_decode_qx : decode 0x1500000005 = .instr .qx := by decide
theorem test_decode_pass : decode 0x15FFFF0006 = .instr (.pass 0xFFFF) := by decide
theorem test_decode_reset : decode 0x1500000007 = .instr .reset := by decide

/-- 95_test_vectors.md 2.1: the words that raise `AddrErr`. -/
theorem test_decode_addrErr :
    [0x0500000000, 0x0800000000, 0x0F00000000, 0x1600000000, 0x170000000E, 0x1800000000, 0x1FFFFFFFFF].map decode =
      List.replicate 7 (.illegal .addrErr) := by decide

/-- 95_test_vectors.md 2.1: the words that raise `IllCmd`. -/
theorem test_decode_illCmd :
    [0x1500000008, 0x15000000FF, 0x1500000101, 0x1500008000, 0x1500010001, 0x1500010000, 0x15FFFF0007,
      0x15FFFF0106].map decode = List.replicate 8 (.illegal .illCmd) := by decide

/-- No word selects two rows: two rows differ in a bit that both masks keep (30_encoding.md R95, R96). -/
theorem test_opcode_rows_disjoint :
    opcodeRows.Pairwise (fun a b => (a.pattern ^^^ b.pattern) &&& (a.mask &&& b.mask) ≠ 0) := by decide

theorem test_opcode_rows_count : opcodeRows.length = 20 := by decide

/-- The host's numbering of a word: the row's 37 bits in 40 (log 8). -/
theorem test_decodeTableWord :
    decodeTableWord 40 0x1500000001 = some .sine ∧ decodeTableWord 40 0x15FFFF0006 = some (.pass 0xFFFF) ∧
    decodeTableWord 40 0x0500000000 = none ∧ decodeTableWord 40 0x3500000001 = none := by decide

/-! ## One step of each operation (values of 95_test_vectors.md, or of the rule's own example) -/

/-- The state after an operation. -/
def after (i : Instr) (s : State) : Option State := nextState (exec i s)

/-- A small state: the reset state with a phase, a frequency, a duty and a count. -/
def osc (mode : QRound) (phase freq duty count : Word) : State :=
  { State.reset with phase := phase, freq := freq, duty := duty, count := count, qround := mode }

/-- What an oscillator command changes. -/
def oscView (t : State) : Sample × List Sample × Word × Word × Bool :=
  (t.sample, t.out, t.phase, t.count, t.errOverrun)

/-- 40_register_access.md R121, R126: `WR FREQ, 0x10000000` then `RD FREQ`. -/
theorem test_wrFreq_rdFreq :
    ((after (.wrFreq 0x10000000) State.reset).bind (after .rdFreq)).map (·.reads) = some [0x10000000] := by decide

/-- 95_test_vectors.md 2.2: the other registers still read 0. -/
theorem test_wrPhase_rdPhase :
    ((after (.wrPhase 0xDEADBEEF) State.reset).bind (after .rdPhase)).map (fun t => (t.reads, t.freq, t.duty)) =
      some ([0xDEADBEEF], 0, 0) := by decide

/-- 40_register_access.md R123: `WR DUTY, 0x80000000` then `RD DUTY`. -/
theorem test_wrDuty_rdDuty :
    ((after (.wrDuty 0x80000000) State.reset).bind (after .rdDuty)).map (·.reads) = some [0x80000000] := by decide

/-- 40_register_access.md R124: `WR COUNT, 3` then `RD STATUS` returns 0. -/
theorem test_wrCount_rdStatus :
    ((after (.wrCount 3) State.reset).bind (after .rdStatus)).map (·.reads) = some [0] := by decide

/-- 95_test_vectors.md 2.2: `WR COUNT, 0xDEADBEEF`; `RD COUNT`. -/
theorem test_wrCount_rdCount :
    ((after (.wrCount 0xDEADBEEF) State.reset).bind (after .rdCount)).map (·.reads) = some [0xDEADBEEF] := by decide

/-- 95_test_vectors.md 2.2: `WR XIN, 0xDEADBEEF`; `RD XIN`. -/
theorem test_wrXin_rdXin :
    ((after (.wrXin 0xDEADBEEF) State.reset).bind (after .rdXin)).map (·.reads) = some [0xDEADBEEF] := by decide

/-- 95_test_vectors.md 2.2: `PASS 0x8000`; `RD SAMPLE` is sign-extended. -/
theorem test_pass_rdSample :
    ((after (.pass 0x8000) State.reset).bind (after .rdSample)).map (fun t => (t.reads, t.out)) =
      some ([0xFFFF8000], [0x8000]) := by decide

/-- 95_test_vectors.md 2.9: all three flags and `DONE` read 0x0000000F. -/
theorem test_rdStatus_all_flags :
    (after .rdStatus { State.reset with errOverrun := true, errIllCmd := true, errAddr := true }).map (·.reads) =
      some [0xF] := by decide

/-- 95_test_vectors.md 2.5, P = 0x01000000: a tie, 100.5 sample units. -/
theorem test_sine_tie :
    [QRound.trunc, .nearestAway, .nearestEven].map
        (fun m => (after .sine (osc m 0x01000000 0x10000000 0 2)).map oscView) =
      [some (0x0064, [0x0064], 0x11000000, 1, false), some (0x0065, [0x0065], 0x11000000, 1, false),
        some (0x0064, [0x0064], 0x11000000, 1, false)] := by decide

/-- 95_test_vectors.md 2.5, P = 0xBFC00000, the third quadrant; the phase wraps. -/
theorem test_sine_third_quadrant :
    (after .sine (osc .trunc 0xBFC00000 0x80000000 0 1)).map oscView =
      some (0xF001, [0xF001], 0x3FC00000, 0, false) := by decide

/-- 95_test_vectors.md 2.3, P = 0x7FFC0000: a tie below zero. -/
theorem test_ramp_tie :
    [QRound.trunc, .nearestAway, .nearestEven].map
        (fun m => (after .ramp (osc m 0x7FFC0000 1 0 1)).map oscView) =
      [some (0, [0], 0x7FFC0001, 0, false), some (0xFFFF, [0xFFFF], 0x7FFC0001, 0, false),
        some (0, [0], 0x7FFC0001, 0, false)] := by decide

/-- 95_test_vectors.md 2.9: at `COUNT` = 0 nothing but the flag changes. -/
theorem test_ramp_overrun :
    (after .ramp (osc .trunc 0x40000000 0x40000000 0 0)).map oscView = some (0, [], 0x40000000, 0, true) := by decide

/-- 95_test_vectors.md 2.4, P = 0x00060000 on the rising half. -/
theorem test_tri_rising :
    [QRound.trunc, .nearestAway, .nearestEven].map
        (fun m => (after .tri (osc m 0x00060000 0 0 1)).map (·.sample)) =
      [some 0xF002, some 0xF001, some 0xF002] := by decide

/-- 95_test_vectors.md 2.4, P = 0x80000001 on the falling half. -/
theorem test_tri_falling :
    [QRound.trunc, .nearestAway, .nearestEven].map
        (fun m => (after .tri (osc m 0x80000001 0 0 1)).map (·.sample)) =
      [some 0x0FFF, some 0x1000, some 0x1000] := by decide

/-- 95_test_vectors.md 2.6: the comparison is strict. -/
theorem test_pwm_strict :
    (after .pwm (osc .trunc 0x80000000 0 0x80000000 1)).map (·.sample) = some 0xF000 := by decide

/-- 95_test_vectors.md 2.6: the comparison is unsigned. -/
theorem test_pwm_unsigned :
    (after .pwm (osc .trunc 0x80000000 0 0x7FFFFFFF 1)).map (·.sample) = some 0x1000 := by decide

/-- 95_test_vectors.md 2.7, X = 0xFFFFD800, at `COUNT` = 0. -/
theorem test_qx_tie :
    [QRound.trunc, .nearestAway, .nearestEven].map
        (fun m => (after .qx { State.reset with xin := 0xFFFFD800, qround := m }).map (·.out)) =
      [some [0xFFFE], some [0xFFFD], some [0xFFFE]] := by decide

/-- 95_test_vectors.md 2.7, X = 0xF7FFF000: wrap, no saturation. -/
theorem test_qx_wraps :
    (after .qx { State.reset with xin := 0xF7FFF000 }).map (·.sample) = some 0x7FFF := by decide

/-- 43_control.md R190. -/
theorem test_nop : after .nop (osc .trunc 1 2 3 0) = some (osc .trunc 1 2 3 0) := by decide

/-- 43_control.md R191: `OUT` keeps its sample (95_test_vectors.md, program P3). -/
theorem test_reset :
    after .reset { osc .nearestEven 1 2 3 4 with sample := 9, out := [9], errAddr := true } =
      some { State.reset with out := [9], qround := .nearestEven } := by decide

/-! ## Steps through the host's side -/

/-- The host has one transaction to present. -/
def one (s : State) (tw : TransactionWord) : State := s.withInput [.transaction tw]

/-- A small state with an event of the reset input to come. -/
def withRst : State := (osc .trunc 1 2 3 4).withInput [.rst, .transaction 0x1500000000]

/-- 95_test_vectors.md 2.9: a command word sent to a reserved slot raises `AddrErr`, whatever the word. -/
theorem test_step_reserved_slot :
    (nextState (step (one State.reset 0x1900000007))).map (fun t => (t.errAddr, t.errIllCmd, t.reads, t.input)) =
      some (true, false, [], []) := by decide

/-- 95_test_vectors.md 2.2: a read of `CMD` returns 0 and raises `AddrErr`. -/
theorem test_step_read_of_cmd :
    (nextState (step (one State.reset 0x0500000000))).map (fun t => (t.errAddr, t.reads)) = some (true, [0]) := by decide

/-- 95_test_vectors.md 2.9: `IllCmd` and not `Overrun` for a bad command word at `COUNT` = 0. -/
theorem test_step_illCmd_first :
    (nextState (step (one State.reset 0x1500010001))).map (·.statusWord) = some 5 := by decide

/-- 70_reset_and_hazards.md R230: the reset input. -/
theorem test_step_rst :
    (nextState (step withRst)).map (fun t => (t.phase, t.count, t.input)) = some (0, 0, [.transaction 0x1500000000]) := by
  decide

/-- 60_exceptions.md R212: nothing happens with no event. -/
theorem test_step_idle : nextState (step (osc .trunc 1 2 3 4)) = some (osc .trunc 1 2 3 4) := by decide

/-- The word the host places is the one the next step runs. -/
theorem test_withFetchWord :
    (nextState (step (State.reset.withFetchWord 40 0x1512340006))).map (fun t => (t.out, t.input)) =
      some ([0x1234], []) := by decide

/-! ## The host's notation, the bus and the sample store -/

/-- 95_test_vectors.md 2.8 and 30_encoding.md R101. -/
theorem test_assemble :
    [AsmLine.pass (-4096), .wr .freq (-1), .rd .status, .raw 1 7 0xE].map assemble =
      [some 0x15F0000006, some 0x10FFFFFFFF, some 0x0700000000, some 0x170000000E] := by decide

/-- 95_test_vectors.md, program P5: the first three words. -/
theorem test_tone : expand (.tone 0x1999999A 8000) = some [0x101999999A, 0x1100000000, 0x1300001F40] := by decide

/-- A loop of two samples makes three polls (30_encoding.md R102). -/
theorem test_until_done :
    (runHost 3 (.seq (.tone 0x20000000 2) (.untilDone (.line .ramp))) State.reset).map
        (fun t => (t.reads, t.out, t.count)) = some ([0, 0, 1], [0xF000, 0xF400], 0) := by decide

/-- 20_memory.md R52, R53: `WR PHASE` by its four bytes; a misaligned, a narrow and an outside access. -/
theorem test_bus :
    busTransaction 0x100 ⟨true, 0x104, 4, [0xEF, 0xBE, 0xAD, 0xDE]⟩ = some 0x11DEADBEEF ∧
    busTransaction 0x100 ⟨false, 0x106, 4, []⟩ = none ∧ busTransaction 0x100 ⟨false, 0x104, 2, []⟩ = none ∧
    busTransaction 0x100 ⟨false, 0x140, 4, []⟩ = none := by decide

/-- 20_memory.md R72: index 15999 is in block 15 (95_test_vectors.md, program P5). -/
theorem test_cursor_split : Cursor.fromIndex 15999 = ⟨15, 639⟩ := by decide

/-- 20_memory.md R72, R77: a step back over a block's edge, and a negative position. -/
theorem test_cursor_advance :
    (Cursor.mk 1 0).advance (-1) = .ok ⟨0, 1023⟩ ∧ (Cursor.mk 1 0).advance (-1025) = .error .invalidAddress := by
  constructor
  · norm_num [Cursor.advance, Cursor.ofPosition, Cursor.flatPosition, Cursor.fromIndex, Config.blockSize,
      Config.blockBits]
    decide
  · norm_num [Cursor.advance, Cursor.ofPosition, Cursor.flatPosition, Config.blockSize]

/-- 20_memory.md R73: `t·FS` is truncated toward zero, on either side of 0 (log 19). -/
theorem test_cursor_fromTime :
    Cursor.fromTime (19999 / 10000) 1 = .ok (Cursor.fromIndex 1) ∧
    Cursor.fromTime (-1 / 2) 1 = .ok (Cursor.fromIndex 0) := by
  constructor <;> norm_num [Cursor.fromTime, Cursor.ofPosition] <;> rfl

/-- 20_memory.md R76: the loop over the block with `COUNT` = 2 writes the two samples of a ramp and stops. -/
theorem test_record_block :
    ((Track.recordLoop .trunc pollDone (nextFromBlock .ramp) 3 (Cursor.fromIndex 5) Track.empty
        (osc .trunc 0 0x20000000 0 2)).map (fun r => (r.1.get 5, r.1.get 6, r.2.reads, r.2.out))) =
      some (0xF000, 0xF400, [0, 0, 1], [0xF000, 0xF400]) := by decide

/-- 20_memory.md R79, from the byte list: the size fields for one block at 8000 Hz. -/
theorem test_wav_header :
    wavHeader 8000 2048 =
      [0x52, 0x49, 0x46, 0x46, 0x24, 0x08, 0, 0, 0x57, 0x41, 0x56, 0x45, 0x66, 0x6D, 0x74, 0x20, 16, 0, 0, 0, 1, 0, 1, 0,
        0x40, 0x1F, 0, 0, 0x80, 0x3E, 0, 0, 2, 0, 16, 0, 0x64, 0x61, 0x74, 0x61, 0, 8, 0, 0] := by decide

/-! ## Witnesses: for each obligation with hypotheses, an instance that meets them -/

theorem witness_EncodeInvertsDecode :
    decode 0x00FFFFFFFF = .instr .rdFreq ∧ decode 0x17FFFFFFFF ≠ .instr .rdFreq ∧
    decode 0x15FFFF0006 = .instr (.pass 0xFFFF) := by decide

theorem witness_DecoderAgreesWithOpcodeTable :
    Instr.sine.row ∈ opcodeRows ∧ Instr.sine.row.selects 0x1500000001 ∧
    decode 0x1500000001 = .instr .sine ∧ decode 0x10FFFFFFFF = .instr (.wrFreq 0xFFFFFFFF) ∧
    decode 0x1580000006 = .instr (.pass 0x8000) := by decide

theorem witness_StepRunsTheDecodedOperation :
    (one State.reset 0x1500000005).input = .transaction 0x1500000005 :: [] ∧
    decode 0x1500000005 = .instr .qx := by decide

/-- Each alternative of the hypothesis, at its boundary indices: read of 5, write of 6 and 7, either access to 8 and
15. -/
theorem witness_ForbiddenAccessRaisesAddrErr :
    (one State.reset (transactionWord false 5 0)).input = .transaction (transactionWord false 5 0) :: [] ∧
    (BitVec.toNat (5 : SlotIndex) = 5) ∧
    (one State.reset (transactionWord true 6 1)).input = .transaction (transactionWord true 6 1) :: [] ∧
    (BitVec.toNat (6 : SlotIndex) = 6 ∧ BitVec.toNat (7 : SlotIndex) = 7) ∧
    (one State.reset (transactionWord false 8 1)).input = .transaction (transactionWord false 8 1) :: [] ∧
    (8 ≤ BitVec.toNat (8 : SlotIndex) ∧ 8 ≤ BitVec.toNat (15 : SlotIndex)) := by decide

/-- Each alternative of the hypothesis on the command word: `zero` field, code 8, immediate on a fixed command. -/
theorem witness_IllegalCommandWordRaisesIllCmd :
    (one State.reset (transactionWord true 5 0x106)).input = .transaction (transactionWord true 5 0x106) :: [] ∧
    BitVec.toNat (0x106 : Word) / 2 ^ 8 % 2 ^ 8 ≠ 0 ∧
    8 ≤ BitVec.toNat (0x8 : Word) % 2 ^ 8 ∧
    (BitVec.toNat (0x10000 : Word) / 2 ^ 16 ≠ 0 ∧ BitVec.toNat (0x10000 : Word) % 2 ^ 8 ≠ 6) := by decide

/-- Each clause: a rejected slot, a rejected command word, a legal oscillator command (codes 1 and 4) at `COUNT` = 0,
and a flag that goes from 0 to 1. -/
theorem witness_FirstFailingCheckRaises :
    (nextState (step (one State.reset (transactionWord true 15 1)))).map (·.flag .addrErr) = some true ∧
    (nextState (step (one State.reset (transactionWord true 5 0x00010001)))).map (·.flag .illCmd) = some true ∧
    (nextState (step (one State.reset (transactionWord true 5 1)))).map (·.flag .overrun) = some true ∧
    (nextState (step (one State.reset (transactionWord true 5 4)))).map (·.flag .overrun) = some true ∧
    State.reset.flag .overrun = false ∧ State.reset.count = 0 := by decide

theorem witness_IdleBlockHoldsItsState : (osc .trunc 1 2 3 4).input = [] := by decide

/-- Both sources of a reset. -/
theorem witness_ResetFromEitherSource :
    withRst.input = .rst :: [.transaction 0x1500000000] ∧
    (one (osc .trunc 1 2 3 4) 0x1500000007).input = .transaction 0x1500000007 :: [] := by decide

/-- A step that goes on; so does every step. -/
theorem witness_StepTakesOneEvent : nextState (step withRst) ≠ none ∧ withRst.input ≠ [] := by decide

/-- Each clause: an executed sample command; and an event that emits nothing (an overrun). -/
theorem witness_EmitOncePerExecutedSampleCommand :
    ((one (osc .trunc 0 0 0 1) 0x1500000001).input.head? = some (.transaction 0x1500000001) ∧
      decode 0x1500000001 = .instr .sine ∧ Instr.sine.isSampleCommand = true ∧ (osc .trunc 0 0 0 1).count ≠ 0 ∧
      (nextState (step (one (osc .trunc 0 0 0 1) 0x1500000001))).map (·.out) = some [0]) ∧
    ((one State.reset 0x1500000001).count = 0 ∧
      (nextState (step (one State.reset 0x1500000001))).map (·.out) = some []) := by decide

/-- A cause that sets its flag, and a reset that clears it. -/
theorem witness_FlagsAreSetByTheirCauseAndClearedByReset :
    raisedBy (one State.reset 0x1500000001) (.transaction 0x1500000001) = some .overrun ∧
    (nextState (step (one State.reset 0x1500000001))).map (·.flag .overrun) = some true ∧
    resets .rst = true ∧ resets (.transaction 0x1500000007) = true ∧
    (nextState (step (State.withInput { State.reset with errAddr := true } [.rst]))).map (·.flag .addrErr) =
      some false := by decide

theorem witness_RecordIsNeverRead :
    (nextState (step (one { State.reset with out := [1], reads := [2] } 0x0600000000))).map
      (fun t => (t.out, t.reads)) = some ([1], [2, 0]) := by decide

theorem witness_ConfigurationIsConstant :
    (nextState (step (one (osc .nearestAway 0 0 0 1) 0x1500000007))).map (·.qround) = some .nearestAway := by decide

/-- Both forms of the invariant, and a step that goes on from each. -/
theorem witness_StepKeepsSampleTracksOut :
    SampleTracksOut 0 (one State.reset 0x1500050006) ∧
    SampleTracksOut 1 { State.reset with out := [3, 4], sample := 4, input := [.rst] } ∧
    nextState (step (one State.reset 0x1500050006)) ≠ none ∧
    nextState (step { State.reset with out := [3, 4], sample := 4, input := [.rst] }) ≠ none :=
  ⟨.inl ⟨rfl, rfl⟩, .inr ⟨by decide, rfl⟩, by decide, by decide⟩

/-- `DONE` is 1, and two events come that do not write `COUNT`, one of them a reset. -/
theorem witness_DoneIsMonotonic :
    (State.reset.withInput [.transaction 0x1500000001, .rst]).statusWord.getLsbD 0 = true ∧
    (∀ e ∈ (State.reset.withInput [.transaction 0x1500000001, .rst]).input.take 2, writesCount e = false) ∧
    (nextState (runFrom State.reset [.transaction 0x1500000001, .rst])).map (·.count) = some 0 :=
  ⟨by decide, by decide, by decide⟩

theorem witness_SineEmitsAdvancesAndCounts : (osc .trunc 0 0 0 1).count ≠ 0 := by decide

theorem witness_RampEmitsAdvancesAndCounts : (osc .nearestAway 0 0 0 0xFFFFFFFF).count ≠ 0 := by decide

/-- The last phase of the rising half and the first of the falling half. -/
theorem witness_TriEmitsAdvancesAndCounts :
    ((osc .trunc 0x7FFFFFFF 0 0 1).count ≠ 0 ∧ (osc .trunc 0x7FFFFFFF 0 0 1).phase.toNat < 2 ^ 31) ∧
    ((osc .trunc 0x80000000 0 0 1).count ≠ 0 ∧ 2 ^ 31 ≤ (osc .trunc 0x80000000 0 0 1).phase.toNat) := by decide

/-- The phase at the duty word and just above it. -/
theorem witness_PwmEmitsAdvancesAndCounts :
    (osc .trunc 7 0 7 1).count ≠ 0 ∧ (osc .trunc 8 0 7 1).count ≠ 0 := by decide

/-- Both sides of the gate, for each of the four commands. -/
theorem witness_OscillatorCommandsAreGatedByCount :
    [Instr.sine, .ramp, .tri, .pwm].map Instr.isOscillator = List.replicate 4 true ∧
    State.reset.count = 0 ∧ (osc .trunc 0 0 0 0xFFFFFFFF).count ≠ 0 := by decide

theorem witness_SineReadsTheQuarterWaveTable :
    BitVec.toNat (0x3FC00000 : Word) / 2 ^ 22 = BitVec.toNat (0x3FFFFFFF : Word) / 2 ^ 22 := by decide

theorem witness_SineTableIsTheRoundedSine : (0 : Nat) ≤ 256 ∧ (256 : Nat) ≤ 256 := by decide

/-- A value at the bound on either side, an oscillator command, and the largest external value that cannot wrap. -/
theorem witness_UnitValuesNeverWrap :
    |(2 ^ 31 : Int)| ≤ 2 ^ 31 ∧ |(-2 ^ 15 : Int)| ≤ 2 ^ 15 ∧ Instr.sine.isOscillator = true ∧
    |(2 ^ 27 - 2 ^ 11 - 1 : Int)| < 2 ^ 27 - 2 ^ 11 := by decide

/-- The least `d`, a multiple, a tie in each nearest mode (5/2), and a case where the two differ. -/
theorem witness_RoundingModesOfTheQuantizer :
    1 ≤ 1 ∧ (6 : Int) = 3 * 2 ^ 1 ∧ 2 * |(5 : Int) - rnd .nearestAway 5 1 * 2 ^ 1| = 2 ^ 1 ∧
    2 * |(5 : Int) - rnd .nearestEven 5 1 * 2 ^ 1| = 2 ^ 1 ∧ rnd .nearestAway 5 1 ≠ rnd .nearestEven 5 1 := by decide

theorem witness_RampSamplesInClosedForm :
    2 ^ 31 ≤ BitVec.toNat (0x80000000 : Word) ∧ BitVec.toNat (0x7FFFFFFF : Word) < 2 ^ 31 ∧
    0xFFFC0000 ≤ BitVec.toNat (0xFFFC0000 : Word) ∧
    signed (oscSample .trunc .ramp 0x7FF80001 0) = 0 ∧ signed (oscSample .trunc .ramp 0x8007FFFF 0) = 0 := by decide

theorem witness_TriangleExtremes :
    QRound.nearestEven ≠ .trunc ∧
    (0x7FFE0000 ≤ BitVec.toNat (0x7FFE0000 : Word) ∧ BitVec.toNat (0x80020000 : Word) ≤ 0x80020000) ∧
    (0xFFFE0000 ≤ BitVec.toNat (0xFFFE0000 : Word) ∧ BitVec.toNat (0x00020000 : Word) ≤ 0x00020000) ∧
    signed (oscSample .trunc .tri 0x80000000 0) = 4096 ∧ signed (oscSample .trunc .tri 0 0) = -4096 := by decide

/-- The last phase word below π and the first one at π. -/
theorem witness_TriangleFollowsTheDocument :
    2 * Real.pi * BitVec.toNat (0 : Word) / 2 ^ 32 < Real.pi ∧
    Real.pi ≤ 2 * Real.pi * BitVec.toNat (0x80000000 : Word) / 2 ^ 32 := by
  have h0 : ((BitVec.toNat (0 : Word) : Nat) : ℝ) = 0 := by simp
  have h1 : ((BitVec.toNat (0x80000000 : Word) : Nat) : ℝ) = 2 ^ 31 := by
    rw [show BitVec.toNat (0x80000000 : Word) = 2 ^ 31 by decide]
    norm_num
  rw [h0, h1]
  refine ⟨by simpa using Real.pi_pos, le_of_eq (by ring)⟩

/-- The least duty angle and one inside the range. -/
theorem witness_DutyWordRealisesTheDutyAngle :
    ((0 : ℝ) ≤ 0 ∧ (0 : ℝ) < 2 * Real.pi) ∧ (0 ≤ Real.pi ∧ Real.pi < 2 * Real.pi) := by
  have := Real.pi_pos
  refine ⟨⟨le_refl _, by linarith⟩, by linarith, by linarith⟩

/-- Two commands with `COUNT` = 2, and one event after them. -/
theorem witness_OscillatorRunFollowsTheAccumulator :
    (∀ c ∈ [Instr.sine, .pwm], c.isOscillator = true) ∧
    [Instr.sine, .pwm].length ≤ (osc .trunc 0 1 0 2).count.toNat ∧
    ((osc .trunc 0 1 0 2).withInput [.transaction 0x1500000001, .transaction 0x1500000004, .rst]).input =
      [Instr.sine, .pwm].map (fun c => .transaction (encode c)) ++ [.rst] :=
  ⟨by simp [Instr.isOscillator], by decide, by decide⟩

/-- 1000 Hz at 8000 Hz (95_test_vectors.md, program P5) and its negative, each with two commands and `COUNT` = 2. -/
theorem witness_ExactFrequencyWordGivesTheDocumentsPhase :
    ((0 : ℝ) < 8000 ∧ ((0x20000000 : Int) : ℝ) = 1000 * 2 ^ 32 / 8000 ∧
      ((-0x20000000 : Int) : ℝ) = -1000 * 2 ^ 32 / 8000) ∧
    ((osc .trunc 0 0x20000000 0 2).phase = 0 ∧ (osc .trunc 0 0x20000000 0 2).freq = wrap32 0x20000000 ∧
      (osc .trunc 0 0xE0000000 0 2).freq = wrap32 (-0x20000000)) ∧
    (∀ c ∈ [Instr.sine, .ramp], c.isOscillator = true) ∧
    [Instr.sine, .ramp].length ≤ (osc .trunc 0 0x20000000 0 2).count.toNat ∧
    ((osc .trunc 0 0x20000000 0 2).withInput [.transaction 0x1500000001, .transaction 0x1500000002]).input =
      [Instr.sine, .ramp].map (fun c => .transaction (encode c)) ++ [] :=
  ⟨by norm_num, by decide, by simp [Instr.isOscillator], by decide, by decide⟩

/-- Zero frequency; and the word of −1/16 cycle per sample (95_test_vectors.md, program P2). -/
theorem witness_ZeroAndNegativeFrequencyAreLegal :
    ((osc .trunc 5 0 0 1).freq = 0 ∧ (osc .trunc 5 0 0 1).count ≠ 0 ∧ Instr.tri.isOscillator = true) ∧
    ((osc .trunc 5 0xF0000000 0 1).freq = BitVec.ofInt 32 (-((0x10000000 : Nat) : Int)) ∧ 0x10000000 < 2 ^ 32) := by
  decide

theorem witness_FrequencyChangeIsPhaseContinuous :
    Instr.tri.isOscillator = true ∧ Instr.pwm.isOscillator = true ∧ 2 ≤ (osc .trunc 0 1 0 2).count.toNat := by decide

/-- Words with the code of `QX`, legal and not, and a `QX` that goes on. -/
theorem witness_QxQuantizesTheExternalValue :
    BitVec.toNat (0x5 : Word) % 2 ^ 8 = 5 ∧ BitVec.toNat (0x10005 : Word) % 2 ^ 8 = 5 ∧ after .qx State.reset ≠ none := by
  decide

/-- Words with the code of `PASS`, legal and not. -/
theorem witness_PassEmitsTheImmediate :
    BitVec.toNat (0xFFFF0006 : Word) % 2 ^ 8 = 6 ∧ BitVec.toNat (0xFFFF0106 : Word) % 2 ^ 8 = 6 := by decide

/-- Words with the code of `NOP`, legal and not. -/
theorem witness_NopChangesNothing :
    BitVec.toNat (0 : Word) % 2 ^ 8 = 0 ∧ BitVec.toNat (0x100 : Word) % 2 ^ 8 = 0 := by decide

theorem witness_ResetCommandClearsTheBlock :
    withRst.input = .rst :: [.transaction 0x1500000000] ∧ after .reset withRst ≠ none ∧
    BitVec.toNat (7 : Word) % 2 ^ 8 = 7 ∧ BitVec.toNat (0xFFFF0007 : Word) % 2 ^ 8 = 7 ∧
    decode 0x1500000000 ≠ .instr .reset ∧
    (nextState (step (one { State.reset with errAddr := true } 0x1500000000))).map (·.flag .addrErr) = some true := by
  decide

theorem witness_StatusIsAViewOfTheFlags :
    (one State.reset (transactionWord true 7 0xE)).input = .transaction (transactionWord true 7 0xE) :: [] := by decide

theorem witness_ReadsAndRegisterWritesRepeat :
    Instr.rdStatus.isRead = true ∧ after .rdStatus State.reset ≠ none ∧ after (.wrCount 1) State.reset ≠ none := by decide

theorem witness_PollingLoopDrainsTheCount :
    Instr.sine.isOscillator = true ∧ (osc .trunc 0 0 0 0).count.toNat = 0 ∧ (osc .trunc 0 0 0 2).count.toNat = 2 := by
  decide

/-- The operands at both ends of the notation's range. -/
theorem witness_PseudoInstructionsExpand :
    (-2 ^ 31 ≤ (-2 ^ 31 : Int) ∧ (-2 ^ 31 : Int) < 2 ^ 32) ∧ (-2 ^ 31 ≤ (2 ^ 32 - 1 : Int) ∧ (2 ^ 32 - 1 : Int) < 2 ^ 32) := by
  decide

/-- An aligned base; and a width, an alignment, an address below and an address above that are refused. -/
theorem witness_BusAdapterMapsAlignedWords :
    0x100 % 4 = 0 ∧ (2 ≠ 4) ∧ (0x101 % 4 ≠ 0) ∧ (0xFC < 0x100) ∧ (0x100 + 63 < 0x140) := by decide

/-- The least flat position, and one below it. -/
theorem witness_CursorSplitsFlatPositions :
    ((Cursor.fromIndex 5).flatPosition : Int) + (-6) < 0 ∧ 0 ≤ ((Cursor.fromIndex 5).flatPosition : Int) + (-5) := by
  decide

theorem witness_TrackIsWellFormed :
    Track.empty.wf = true ∧ (Track.empty.grow 0).samples.length = 1024 ∧ (Track.empty.grow 0).wf = true := by
  have h : (Track.empty.grow 0).samples.length = 1024 := by
    rw [Track.grow, List.length_append, List.length_replicate]
    decide
  exact ⟨rfl, h, by rw [Track.wf, h]; rfl⟩

theorem witness_TrackWriteAddsAndWraps : (1 : Nat) ≠ 0 := by decide

/-- A recorded sample, an index before it and one after it; a start time that is taken and one that is rejected; an
oscillator command. -/
theorem witness_RecordingPlacesEachSample :
    (0 < [(7 : Sample)].length ∧ (0 < 1 ∨ 1 + [(7 : Sample)].length ≤ 0) ∧
      (2 < 1 ∨ 1 + [(7 : Sample)].length ≤ 2)) ∧
    Cursor.fromTime 1 8000 = .ok (Cursor.fromIndex 8000) ∧
    Cursor.fromTime (-1) 8000 = .error .invalidAddress ∧ Instr.sine.isOscillator = true :=
  ⟨by decide, by norm_num [Cursor.fromTime, Cursor.ofPosition]; rfl, by norm_num [Cursor.fromTime, Cursor.ofPosition],
    by decide⟩

end Sys2Proof.Tests
end

section
/-! SUPPORT. What an operation, a step and a run can do, said once: the relation `Executes`, the step of each kind of
event, and the induction over a run. -/

namespace Sys2Proof.Machine

/-! ## What an operation can do -/

/-- `Executes s i t`: the operation `i` takes the state `s` to `t`, each family of operations by its rule. -/
inductive Executes (s : State) : Instr → State → Prop where
  /-- A read answers the value of its slot (40_register_access.md R120). -/
  | read {i : Instr} (slot : Slot) (h : decodeRead slot = .instr i) : Executes s i (s.respond (s.slotValue slot))
  | wrFreq (d : Word) : Executes s (.wrFreq d) (s.setFreq d)
  | wrPhase (d : Word) : Executes s (.wrPhase d) (s.setPhase d)
  | wrDuty (d : Word) : Executes s (.wrDuty d) (s.setDuty d)
  | wrCount (d : Word) : Executes s (.wrCount d) (s.setCount d)
  | wrXin (d : Word) : Executes s (.wrXin d) (s.setXin d)
  | nop : Executes s .nop s
  /-- The four oscillator commands share one body (41_oscillator.md R142). -/
  | oscillator {i : Instr} {a : Int} {k : Nat} (h : waveformValue i s.phase s.duty = some (a, k)) :
      Executes s i (s.oscCommand a k)
  | qx : Executes s .qx (s.emit (quantize s.qround s.xinNumerator Config.xinFrac))
  | pass (m : Sample) : Executes s (.pass m) (s.emit m)
  | reset : Executes s .reset s.blockReset

/-- Every operation in every state answers a next state, the one `Executes` gives. -/
theorem exec_executes (i : Instr) (s : State) : ∃ t, exec i s = .next t ∧ Executes s i t := by
  cases i with
  | rdFreq => exact ⟨_, rfl, .read .freq rfl⟩
  | rdPhase => exact ⟨_, rfl, .read .phase rfl⟩
  | rdDuty => exact ⟨_, rfl, .read .duty rfl⟩
  | rdCount => exact ⟨_, rfl, .read .count rfl⟩
  | rdXin => exact ⟨_, rfl, .read .xin rfl⟩
  | rdSample => exact ⟨_, rfl, .read .sample rfl⟩
  | rdStatus => exact ⟨_, rfl, .read .status rfl⟩
  | wrFreq d => exact ⟨_, rfl, .wrFreq d⟩
  | wrPhase d => exact ⟨_, rfl, .wrPhase d⟩
  | wrDuty d => exact ⟨_, rfl, .wrDuty d⟩
  | wrCount d => exact ⟨_, rfl, .wrCount d⟩
  | wrXin d => exact ⟨_, rfl, .wrXin d⟩
  | nop => exact ⟨_, rfl, .nop⟩
  | sine => exact ⟨_, rfl, .oscillator rfl⟩
  | ramp => exact ⟨_, rfl, .oscillator rfl⟩
  | tri => exact ⟨_, rfl, .oscillator rfl⟩
  | pwm => exact ⟨_, rfl, .oscillator rfl⟩
  | qx => exact ⟨_, rfl, .qx⟩
  | pass m => exact ⟨_, rfl, .pass m⟩
  | reset => exact ⟨_, rfl, .reset⟩

/-- Everything an operation can do: the inversion of `exec`. -/
theorem executes_of_exec {i : Instr} {s t : State} (h : exec i s = .next t) : Executes s i t := by
  obtain ⟨u, hu, hexec⟩ := exec_executes i s
  cases hu.symm.trans h
  exact hexec

/-- A read is no sample command (00_scope.md R12). -/
theorem isSampleCommand_of_decodeRead {slot : Slot} {i : Instr} (h : decodeRead slot = .instr i) :
    i.isSampleCommand = false := by
  cases slot <;> cases h <;> rfl

/-- The operations with a waveform value are the oscillator commands (41_oscillator.md R141). -/
theorem isOscillator_of_waveformValue {i : Instr} {p d : Word} {v : Int × Nat} (h : waveformValue i p d = some v) :
    i.isOscillator = true := by
  cases i with
  | sine | ramp | tri | pwm => rfl
  | _ => cases h

/-- An oscillator command is a sample command (00_scope.md R12). -/
theorem isSampleCommand_of_isOscillator {i : Instr} (h : i.isOscillator = true) : i.isSampleCommand = true := by
  cases i with
  | sine | ramp | tri | pwm => rfl
  | _ => cases h

/-! ## Fields that the shared operations leave -/

@[simp] theorem State.oscCommand_input (s : State) (a : Int) (k : Nat) : (s.oscCommand a k).input = s.input := by
  obtain ⟨-, h⟩ | ⟨-, h⟩ := State.oscCommand_cases s a k <;> rw [h]

@[simp] theorem State.reject_count (s : State) (rw : Bool) (c : Cause) : (s.reject rw c).count = s.count := by
  cases rw <;> simp

@[simp] theorem State.reject_sample (s : State) (rw : Bool) (c : Cause) : (s.reject rw c).sample = s.sample := by
  cases rw <;> simp

@[simp] theorem State.reject_out (s : State) (rw : Bool) (c : Cause) : (s.reject rw c).out = s.out := by
  cases rw <;> simp

@[simp] theorem State.reject_input (s : State) (rw : Bool) (c : Cause) : (s.reject rw c).input = s.input := by
  cases rw <;> simp

/-- No operation touches what the host has yet to present (43_control.md, no control transfer). -/
theorem Executes.input_eq {s t : State} {i : Instr} (h : Executes s i t) : t.input = s.input := by
  cases h <;> simp

/-! ## The step of each kind of event -/

/-- A transaction that decodes to an operation executes it (60_exceptions.md R204). -/
theorem step_of_instr {s : State} {tw : TransactionWord} {es : List HostEvent} {i : Instr}
    (hin : s.input = .transaction tw :: es) (hd : decode tw = .instr i) : step s = exec i s.dropEvent := by
  rw [step_of_event hin, takeEvent, transact, hd]

/-- A transaction that the decoder refuses is rejected with its cause (60_exceptions.md R203). -/
theorem step_of_illegal {s : State} {tw : TransactionWord} {es : List HostEvent} {c : Cause}
    (hin : s.input = .transaction tw :: es) (hd : decode tw = .illegal c) :
    step s = .next (s.dropEvent.reject (rwOf tw) c) := by
  rw [step_of_event hin, takeEvent, transact, hd]

/-- `resets` of a transaction: its word is the command `RESET` (70_reset_and_hazards.md R230). -/
theorem resets_transaction_iff {tw : TransactionWord} : resets (.transaction tw) = true ↔ decode tw = .instr .reset := by
  simp [resets]

/-- Either source of reset resets the block (70_reset_and_hazards.md R230). -/
theorem step_of_resets {s : State} {e : HostEvent} {es : List HostEvent} (hin : s.input = e :: es)
    (he : resets e = true) : step s = .next s.dropEvent.blockReset := by
  cases e with
  | rst => rw [step_of_event hin]; rfl
  | transaction tw => rw [step_of_instr hin (resets_transaction_iff.1 he)]; rfl

/-- Every step answers a next state (70_reset_and_hazards.md R242). -/
theorem step_total (s : State) : ∃ t, step s = .next t := by
  rcases hin : s.input with _ | ⟨_ | _, es⟩
  case nil => exact ⟨s, step_of_no_input hin⟩
  case cons.transaction tw =>
    cases hd : decode tw with
    | instr i =>
      obtain ⟨t, ht, -⟩ := exec_executes i s.dropEvent
      exact ⟨t, (step_of_instr hin hd).trans ht⟩
    | illegal c => exact ⟨_, step_of_illegal hin hd⟩
  case cons.rst => exact ⟨_, step_of_resets hin rfl⟩

/-- Every step takes the host's next event and no other (43_control.md, no control transfer). -/
theorem step_input {s t : State} (h : step s = .next t) : t.input = s.input.tail := by
  obtain ⟨hin, rfl⟩ | ⟨es, -, rfl⟩ | ⟨tw, es, i, -, -, hexec⟩ | ⟨tw, es, c, -, -, rfl⟩ := step_cases h
  · simp [hin]
  · simp
  · simpa using (executes_of_exec hexec).input_eq
  · simp

/-! ## The induction over a run -/

/-- A property that every step keeps while the host presents only events with `ok` holds at the end of every run that
is presented only such events. -/
theorem run_keeps {P : State → Prop} {ok : HostEvent → Prop}
    (hstep : ∀ s t, P s → (∀ e, s.input.head? = some e → ok e) → step s = .next t → P t) (k : Nat) :
    ∀ s t, P s → (∀ e ∈ s.input.take k, ok e) → Host.Core.run Sys2Proof.core k s = .next t → P t := by
  induction k with
  | zero =>
    intro s t hs _ hrun
    cases hrun
    exact hs
  | succ k ih =>
    intro s t hs hok hrun
    obtain ⟨u, hu⟩ := step_total s
    rw [run_succ hu] at hrun
    have hhead : ∀ e, s.input.head? = some e → ok e := by
      intro e he
      obtain ⟨es, hin⟩ := List.head?_eq_some_iff.1 he
      exact hok e (by simp [hin])
    have htail : ∀ e ∈ u.input.take k, ok e := by
      intro e he
      rw [step_input hu] at he
      exact hok e (List.mem_of_mem_tail (by rwa [List.tail_take_eq_take_tail]))
    exact ih u t (hstep s u hs hhead hu) htail hrun

end Sys2Proof.Machine
end

section
/-! PROOFS. The statements about the state: `DONE` and `STATUS`, the emission of samples, and reset
(10_state.md R29, R31, R35, R38). -/

namespace Sys2Proof.Machine

/-! ## `DONE` (10_state.md R29) -/

/-- `DONE` is bit 0 of `STATUS`, and is 1 exactly when `COUNT` is 0. -/
theorem statusWord_bit0_iff (s : State) : s.statusWord.getLsbD 0 = true ↔ s.count = 0 := by
  rw [State.statusWord_bit0]
  simp [State.done]

/-- An operation other than `WR.COUNT` leaves a finished count at 0: an oscillator command is rejected there. -/
theorem Executes.keeps_count_zero {s t : State} {i : Instr} (h : Executes s i t) (hs : s.count = 0)
    (hi : ∀ d, i ≠ .wrCount d) : t.count = 0 := by
  cases h with
  | wrCount d => exact absurd rfl (hi d)
  | oscillator => simpa [State.oscCommand_overrun hs] using hs
  | reset => rfl
  | _ => simpa using hs

/-- A transaction of `WR.COUNT` writes `COUNT` from outside. -/
theorem writesCount_of_decode {tw : TransactionWord} {d : Word} (h : decode tw = .instr (.wrCount d)) :
    writesCount (.transaction tw) = true := by
  simp [writesCount, h]

/-- A step whose event is no `WR.COUNT` leaves a finished count at 0. -/
theorem step_keeps_count_zero {s t : State} (hs : s.count = 0)
    (hw : ∀ e, s.input.head? = some e → writesCount e = false) (h : step s = .next t) : t.count = 0 := by
  obtain ⟨-, rfl⟩ | ⟨es, -, rfl⟩ | ⟨tw, es, i, hin, hd, hexec⟩ | ⟨tw, es, c, -, -, rfl⟩ := step_cases h
  · exact hs
  · simp
  · refine (executes_of_exec hexec).keeps_count_zero hs fun d hi => ?_
    have hwrites := writesCount_of_decode (hi ▸ hd)
    simp [hw _ (by rw [hin]; rfl)] at hwrites
  · simpa using hs

/-- Settles O22, by induction over the run: each step keeps `COUNT` = 0. -/
theorem doneIsMonotonic : Obligations.DoneIsMonotonic := by
  refine ⟨statusWord_bit0_iff, fun k s t hs hw hrun => ?_⟩
  rw [statusWord_bit0_iff] at hs ⊢
  exact run_keeps (P := fun u => u.count = 0) (fun _ _ => step_keeps_count_zero) k s t hs hw hrun

/-! ## Emission (10_state.md R31) -/

/-- A sample command that executes emits one sample and latches it. -/
theorem Executes.emits {s t : State} {i : Instr} (h : Executes s i t) (hi : i.isSampleCommand = true)
    (hcount : i.isOscillator = true → s.count ≠ 0) : ∃ w, t.sample = w ∧ t.out = s.out ++ [w] := by
  cases h with
  | read slot hslot => simp [isSampleCommand_of_decodeRead hslot] at hi
  | oscillator hwave =>
    rw [State.oscCommand_executes (hcount (isOscillator_of_waveformValue hwave))]
    exact ⟨_, rfl, rfl⟩
  | qx => exact ⟨_, rfl, rfl⟩
  | pass m => exact ⟨_, rfl, rfl⟩
  | _ => cases hi

/-- Any other operation emits nothing, and leaves `SAMPLE` unless it is `RESET`. -/
theorem Executes.emits_nothing {s t : State} {i : Instr} (h : Executes s i t)
    (hi : ¬ (i.isSampleCommand = true ∧ (i.isOscillator = true → s.count ≠ 0))) :
    t.out = s.out ∧ (t.sample = s.sample ∨ i = .reset) := by
  cases h with
  | oscillator hwave =>
    have hosc := isOscillator_of_waveformValue hwave
    have hzero : s.count = 0 := by
      by_contra hne
      exact hi ⟨isSampleCommand_of_isOscillator hosc, fun _ => hne⟩
    simp [State.oscCommand_overrun hzero]
  | qx => exact absurd ⟨rfl, nofun⟩ hi
  | pass m => exact absurd ⟨rfl, nofun⟩ hi
  | reset => exact ⟨rfl, .inr rfl⟩
  | _ => exact ⟨rfl, .inl rfl⟩

/-- Settles O15: the step of a transaction is its operation, and no other event emits. -/
theorem emitOncePerExecutedSampleCommand : Obligations.EmitOncePerExecutedSampleCommand := by
  refine fun s t h => ⟨?_, fun hno => ?_⟩
  · rintro ⟨tw, i, hhead, hd, hi, hcount⟩
    obtain ⟨es, hin⟩ := List.head?_eq_some_iff.1 hhead
    rw [step_of_instr hin hd] at h
    simpa using (executes_of_exec h).emits hi hcount
  · obtain ⟨-, rfl⟩ | ⟨es, hin, rfl⟩ | ⟨tw, es, i, hin, hd, hexec⟩ | ⟨tw, es, c, -, -, rfl⟩ := step_cases h
    · exact ⟨rfl, .inl rfl⟩
    · exact ⟨rfl, .inr ⟨.rst, by simp [hin], rfl⟩⟩
    · have hhead : s.input.head? = some (.transaction tw) := by simp [hin]
      obtain ⟨hout, hsample⟩ :=
        (executes_of_exec hexec).emits_nothing fun ⟨hi, hcount⟩ => hno ⟨tw, i, hhead, hd, hi, hcount⟩
      refine ⟨hout, hsample.imp id ?_⟩
      rintro rfl
      exact ⟨_, hhead, resets_transaction_iff.2 hd⟩
    · simp

/-! ## `STATUS` (10_state.md R38) -/

/-- Appending one bit below a word puts it at bit 0 and moves the others up by one. -/
theorem getLsbD_append_ofBool {n : Nat} (v : BitVec n) (b : Bool) (j : Nat) :
    (v ++ BitVec.ofBool b).getLsbD j = if j = 0 then b else v.getLsbD (j - 1) := by
  rw [BitVec.getLsbD_append]
  cases j <;> simp

/-- The bits of `STATUS`: `DONE`, the three flags in the order of their codes, and zeros above. -/
theorem getLsbD_statusWord (s : State) (j : Nat) :
    s.statusWord.getLsbD j =
      match j with
      | 0 => s.done
      | 1 => s.errOverrun
      | 2 => s.errIllCmd
      | 3 => s.errAddr
      | _ + 4 => false := by
  refine (getLsbD_append_ofBool _ s.done j).trans ?_
  simp only [getLsbD_append_ofBool]
  rcases j with _ | _ | _ | _ | j <;> simp

/-- A write of `STATUS` is refused with `AddrErr` (40_register_access.md R133). -/
theorem decode_write_status (d : Word) : decode (transactionWord true 7 d) = .illegal .addrErr :=
  decode_transactionWord_write .status d

/-- A write of `STATUS` sets `ERR.ADDR` and changes nothing else in the block, whatever its data. -/
theorem step_of_write_status {s : State} {d : Word} {es : List HostEvent}
    (hin : s.input = .transaction (transactionWord true 7 d) :: es) :
    step s = .next { s with input := es, errAddr := true } := by
  rw [step_of_illegal hin (decode_write_status d), rwOf_transactionWord]
  simp [State.raise_eq, State.dropEvent, hin]

/-- Settles O51, from the bits of `STATUS`. -/
theorem statusIsAViewOfTheFlags : Obligations.StatusIsAViewOfTheFlags := by
  refine ⟨fun s => ⟨s.statusWord, rfl, ?_, ?_, ?_, ?_, fun j hj => ?_⟩, fun s d es => step_of_write_status, by decide⟩
  · exact State.statusWord_bit0 s
  · exact getLsbD_statusWord s 1
  · exact getLsbD_statusWord s 2
  · exact getLsbD_statusWord s 3
  · obtain ⟨n, rfl⟩ := Nat.exists_eq_add_of_le' hj
    exact getLsbD_statusWord s (n + 4)

/-! ## Reset (10_state.md R35) -/

/-- After a reset `DONE` is 1 and the three flags are 0 (70_reset_and_hazards.md R231). -/
theorem State.statusWord_blockReset (s : State) : s.blockReset.statusWord = 1 := by
  simp [State.statusWord, State.done]

/-- After a reset `STATUS` reads 1 and every other slot 0 (70_reset_and_hazards.md R231). -/
theorem State.slotValue_blockReset (s : State) (slot : Slot) :
    s.blockReset.slotValue slot = if slot = .status then 1 else 0 := by
  cases slot with
  | status => exact s.statusWord_blockReset
  | _ => rfl

/-- The two sources of reset are events that reset (70_reset_and_hazards.md R230). -/
theorem resets_of_source {e : HostEvent} (h : e = .rst ∨ e = .transaction 0x1500000007) : resets e = true := by
  obtain rfl | rfl := h <;> decide

/-- Settles O12: either source leads to `blockReset`, whose fields are the reset values. -/
theorem resetFromEitherSource : Obligations.ResetFromEitherSource := by
  refine ⟨fun s rest e he hin => ⟨s.dropEvent.blockReset, step_of_resets hin (resets_of_source he), ?_⟩, ?_⟩
  · simp +contextual [hin, State.slotValue_blockReset]
  · simp

end Sys2Proof.Machine
end

section
/-! SUPPORT. What each function of the cursor gives, said once (20_memory.md R72). -/

namespace Sys2Proof.Machine

/-! ## The two directions between a flat position and a cursor -/

/-- The shift by `BLOCK_BITS` divides by the block size. -/
@[simp] theorem Cursor.fromIndex_block (n : Nat) : (Cursor.fromIndex n).block = n / 1024 :=
  Nat.shiftRight_eq_div_pow n 10

/-- The mask `BLOCK_SIZE − 1` takes the remainder by the block size. -/
@[simp] theorem Cursor.fromIndex_offset (n : Nat) : (Cursor.fromIndex n).offset.val = n % 1024 :=
  Nat.and_two_pow_sub_one_eq_mod n 10

/-- A flat position is the block's first position plus the offset. -/
theorem Cursor.flatPosition_eq (c : Cursor) : c.flatPosition = c.block * 1024 + c.offset.val := rfl

/-- A cursor is determined by its block and its offset as numbers. -/
theorem Cursor.eq_of_block_offset {c d : Cursor} (hblock : c.block = d.block)
    (hoffset : c.offset.val = d.offset.val) : c = d := by
  obtain ⟨block, offset⟩ := c
  exact (Cursor.mk.injEq ..).mpr ⟨hblock, Fin.ext hoffset⟩

/-- Joining undoes splitting: quotient and remainder make up the number. -/
@[simp] theorem Cursor.flatPosition_fromIndex (n : Nat) : (Cursor.fromIndex n).flatPosition = n := by
  rw [Cursor.flatPosition_eq, Cursor.fromIndex_block, Cursor.fromIndex_offset]
  exact Nat.div_add_mod' n 1024

/-- Splitting undoes joining: an offset below the block size is the remainder. -/
@[simp] theorem Cursor.fromIndex_flatPosition (c : Cursor) : Cursor.fromIndex c.flatPosition = c := by
  have hlt : c.offset.val < 1024 := c.offset.isLt
  apply Cursor.eq_of_block_offset
  · rw [Cursor.fromIndex_block, Cursor.flatPosition_eq]
    omega
  · rw [Cursor.fromIndex_offset, Cursor.flatPosition_eq]
    omega

/-! ## The cursor of an integer position, and `advance` -/

/-- A negative position has no cursor (20_memory.md R77). -/
theorem Cursor.ofPosition_of_neg {n : Int} (hn : n < 0) : Cursor.ofPosition n = .error .invalidAddress :=
  if_pos hn

/-- Any other position is split as an index. -/
theorem Cursor.ofPosition_of_nonneg {n : Int} (hn : 0 ≤ n) : Cursor.ofPosition n = .ok (Cursor.fromIndex n.toNat) :=
  if_neg (not_lt.mpr hn)

/-- `advance` below position 0 is rejected (20_memory.md R77). -/
theorem Cursor.advance_of_neg {c : Cursor} {delta : Int} (h : (c.flatPosition : Int) + delta < 0) :
    c.advance delta = .error .invalidAddress :=
  Cursor.ofPosition_of_neg h

/-- `advance` to a position that exists answers the cursor of the moved position. -/
theorem Cursor.advance_of_nonneg {c : Cursor} {delta : Int} (h : 0 ≤ (c.flatPosition : Int) + delta) :
    c.advance delta = .ok (Cursor.fromIndex ((c.flatPosition : Int) + delta).toNat) :=
  Cursor.ofPosition_of_nonneg h

end Sys2Proof.Machine
end

section
/-! PROOFS. The statements about the sample store: the cursor (20_memory.md R72). -/

namespace Sys2Proof.Machine

/-- Settles O56: splitting and joining are inverse, and `advance` splits the moved position. -/
theorem cursorSplitsFlatPositions : Obligations.CursorSplitsFlatPositions := by
  refine ⟨fun n => ⟨Cursor.fromIndex_block n, Cursor.fromIndex_offset n, Cursor.flatPosition_fromIndex n⟩,
    fun c => ⟨c.offset.isLt, c.flatPosition_eq, c.fromIndex_flatPosition⟩,
    fun c delta => Cursor.advance_of_neg, fun c delta h => ⟨_, Cursor.advance_of_nonneg h, ?_⟩⟩
  rw [Cursor.flatPosition_fromIndex, Int.toNat_of_nonneg h]

end Sys2Proof.Machine
end

section
/-! SUPPORT. The decoder and the opcode table, said once: the fields of a masked word, what a masked word that matches
determines, and which words decode to an operation (30_encoding.md R95 to R97). -/

namespace Sys2Proof

/-! ## What a masked word that matches determines -/

/-- The mask of a register transaction keeps `rw` (30_encoding.md R95). -/
theorem rwOf_and_registerMask (tw : TransactionWord) : rwOf (tw &&& 0x1F00000000) = rwOf tw :=
  BitVec.getLsbD_and.trans (Bool.and_true _)

/-- The mask of a register transaction keeps `idx` (30_encoding.md R95). -/
theorem idxOf_and_registerMask (tw : TransactionWord) : idxOf (tw &&& 0x1F00000000) = idxOf tw :=
  BitVec.extractLsb'_and.trans BitVec.and_allOnes

/-- The mask of `PASS` keeps the low half of the command word (30_encoding.md R96). -/
theorem dataOf_and_passMask (tw : TransactionWord) : dataOf (tw &&& 0x1F0000FFFF) = dataOf tw &&& 0xFFFF :=
  BitVec.extractLsb'_and

/-- The `zero` field lies in the low half of the command word (30_encoding.md R93). -/
theorem zeroOf_and_lowHalf (cw : Word) : zeroOf (cw &&& 0xFFFF) = zeroOf cw :=
  BitVec.extractLsb'_and.trans BitVec.and_allOnes

/-- The code lies in the low half of the command word (30_encoding.md R93). -/
theorem opOf_and_lowHalf (cw : Word) : opOf (cw &&& 0xFFFF) = opOf cw :=
  BitVec.extractLsb'_and.trans BitVec.and_allOnes

/-- A word that matches under the mask of a register transaction has the `rw` and `idx` of the match, and its own data
(30_encoding.md R95). -/
theorem eq_transactionWord_of_and_registerMask {tw : TransactionWord} {rw : Bool} {idx : SlotIndex}
    (h : tw &&& 0x1F00000000 = transactionWord rw idx 0) : tw = transactionWord rw idx (dataOf tw) := by
  have hrw : rwOf tw = rw := by rw [← rwOf_and_registerMask, h, rwOf_transactionWord]
  have hidx : idxOf tw = idx := by rw [← idxOf_and_registerMask, h, idxOf_transactionWord]
  rw [← hrw, ← hidx, transactionWord_fields]

/-- A word that matches a command under the mask of `PASS` is that command with its own immediate
(30_encoding.md R96). -/
theorem eq_encodeCommand_of_and_passMask {tw : TransactionWord} {op : BitVec 8}
    (h : tw &&& 0x1F0000FFFF = encodeCommand 0 op) : tw = encodeCommand (imm16Of (dataOf tw)) op := by
  have hregister : tw &&& 0x1F00000000 = transactionWord true Slot.cmd.index 0 := by
    calc tw &&& 0x1F00000000 = (tw &&& 0x1F0000FFFF) &&& 0x1F00000000 :=
          (BitVec.and_assoc tw 0x1F0000FFFF 0x1F00000000).symm
      _ = transactionWord true Slot.cmd.index 0 := by rw [h]; exact transactionWord_and_registerMask ..
  have hdata : dataOf tw &&& 0xFFFF = commandWord 0 op := by
    rw [← dataOf_and_passMask, h]
    exact dataOf_transactionWord ..
  have hzero : zeroOf (dataOf tw) = 0 := by rw [← zeroOf_and_lowHalf, hdata, zeroOf_commandWord]
  have hop : opOf (dataOf tw) = op := by rw [← opOf_and_lowHalf, hdata, opOf_commandWord]
  calc tw = transactionWord true Slot.cmd.index (dataOf tw) := eq_transactionWord_of_and_registerMask hregister
    _ = encodeCommand (imm16Of (dataOf tw)) op := by rw [encodeCommand, encodeWrite, ← hop, commandWord_fields hzero]

/-! ## Which words decode to an operation -/

/-- An access to a reserved index is `AddrErr` (30_encoding.md R97). -/
theorem decode_of_reserved {tw : TransactionWord} (h : Slot.ofIndex (idxOf tw) = none) :
    decode tw = .illegal .addrErr := by
  simp [decode, h]

/-- The decoder undoes the encoder. -/
theorem decode_encode (i : Instr) : decode (encode i) = .instr i := by
  cases i with
  | rdFreq | rdPhase | rdDuty | rdCount | rdXin | rdSample | rdStatus => exact decode_transactionWord_read _ _
  | wrFreq | wrPhase | wrDuty | wrCount | wrXin => exact decode_transactionWord_write _ _
  | nop | sine | ramp | tri | pwm | qx | reset => decide
  | pass m =>
    refine (decode_transactionWord_write .cmd (commandWord m 6)).trans ?_
    simp [decodeWrite, decodeCommand]

/-- A command word that decodes to a command is the one the encoder writes for it. -/
theorem encodeWrite_cmd_of_decodeCommand {cw : Word} {i : Instr} (h : decodeCommand cw = .instr i) :
    encodeWrite .cmd cw = encode i := by
  unfold decodeCommand at h
  split at h
  next => cases h
  next hzero =>
  have hfields : encodeWrite .cmd cw = encodeCommand (imm16Of cw) (opOf cw) := by
    rw [encodeCommand, commandWord_fields (not_not.1 hzero)]
  split at h
  next => cases h
  next himm =>
  have hcommand (op : BitVec 8) (hne : op ≠ 6) (hop : (opOf cw).toNat = op.toNat) :
      encodeWrite .cmd cw = encodeCommand 0 op := by
    obtain rfl := BitVec.eq_of_toNat_eq hop
    rw [hfields, not_not.1 (not_and.1 himm hne)]
  split at h <;> cases h
  next hop => exact hcommand 0 (by decide) hop
  next hop => exact hcommand 1 (by decide) hop
  next hop => exact hcommand 2 (by decide) hop
  next hop => exact hcommand 3 (by decide) hop
  next hop => exact hcommand 4 (by decide) hop
  next hop => exact hcommand 5 (by decide) hop
  next hop => exact hfields.trans (congrArg _ (BitVec.eq_of_toNat_eq hop))
  next hop => exact hcommand 7 (by decide) hop

/-- A write that decodes to an operation is the operation's encoding. -/
theorem encodeWrite_of_decodeWrite {slot : Slot} {d : Word} {i : Instr} (h : decodeWrite d slot = .instr i) :
    encodeWrite slot d = encode i := by
  cases slot with
  | cmd => exact encodeWrite_cmd_of_decodeCommand h
  | _ => cases h <;> rfl

/-- A word that decodes to an operation is a read of the operation's slot, with any data, or the operation's
encoding. -/
theorem word_of_decode {tw : TransactionWord} {i : Instr} (h : decode tw = .instr i) :
    (∃ slot d, tw = transactionWord false slot.index d ∧ decodeRead slot = .instr i) ∨ tw = encode i := by
  cases hslot : Slot.ofIndex (idxOf tw) with
  | none => simp [decode_of_reserved hslot] at h
  | some slot =>
    have hfields := transactionWord_fields tw
    rw [← Slot.index_of_ofIndex hslot] at hfields
    rw [← hfields] at h ⊢
    cases hrw : rwOf tw <;> rw [hrw] at h
    case false => exact .inl ⟨slot, _, rfl, by simpa using h⟩
    case true => exact .inr (encodeWrite_of_decodeWrite (by simpa using h))

/-- A word that decodes to an operation encoded as a write carries the data of that write. -/
theorem dataOf_of_decode {tw : TransactionWord} {i : Instr} {slot : Slot} {d : Word}
    (hencode : encode i = encodeWrite slot d) (h : decode tw = .instr i) : dataOf tw = d := by
  obtain ⟨readSlot, -, -, hread⟩ | rfl := word_of_decode h
  · have hrw := congrArg rwOf hencode
    cases readSlot <;> cases hread <;> simp [encode, encodeRead, encodeWrite] at hrw
  · rw [hencode, encodeWrite, dataOf_transactionWord]

/-! ## The rows of the table -/

/-- The table holds the row of every operation and no other (30_encoding.md R103). -/
theorem mem_opcodeRows_iff {row : OpcodeRow} : row ∈ opcodeRows ↔ ∃ i : Instr, i.row = row := by
  constructor
  · revert row
    simp [opcodeRows]
  · rintro ⟨i, rfl⟩
    cases i <;> simp [opcodeRows, Instr.row]

/-- The row of a read is selected by every word that reads its slot, whatever the data (30_encoding.md R91). -/
theorem selects_row_of_decodeRead {slot : Slot} {i : Instr} (h : decodeRead slot = .instr i) (d : Word) :
    i.row.selects (transactionWord false slot.index d) := by
  cases slot <;> cases h <;> exact transactionWord_and_registerMask _ _ d

/-- The encoding of an operation selects the operation's row. -/
theorem selects_row_encode (i : Instr) : i.row.selects (encode i) := by
  cases i with
  | wrFreq d | wrPhase d | wrDuty d | wrCount d | wrXin d => exact transactionWord_and_registerMask _ _ d
  | pass m => exact encodeCommand_and_passMask m 6
  | _ => decide

/-- A row that masks no bit out is selected by one word, the operation's encoding (30_encoding.md R96). -/
theorem eq_encode_of_full_mask {tw : TransactionWord} {i : Instr} (hmask : i.row.mask = BitVec.allOnes 37)
    (h : i.row.selects tw) : tw = encode i := by
  have hencode := selects_row_encode i
  rw [OpcodeRow.selects, hmask, BitVec.and_allOnes] at h hencode
  exact h.trans hencode.symm

/-- A word that decodes to an operation selects the operation's row. -/
theorem selects_row_of_decode {tw : TransactionWord} {i : Instr} (h : decode tw = .instr i) : i.row.selects tw := by
  obtain ⟨slot, d, rfl, hread⟩ | rfl := word_of_decode h
  · exact selects_row_of_decodeRead hread d
  · exact selects_row_encode i

/-- A word that matches the read of a slot decodes to it. -/
theorem decode_of_and_registerMask_read {tw : TransactionWord} (slot : Slot)
    (h : tw &&& 0x1F00000000 = encodeRead slot) : decode tw = decodeRead slot := by
  rw [eq_transactionWord_of_and_registerMask h, decode_transactionWord_read]

/-- A word that matches the write of a slot decodes to it, with the word's data. -/
theorem decode_of_and_registerMask_write {tw : TransactionWord} (slot : Slot)
    (h : tw &&& 0x1F00000000 = encodeWrite slot 0) : decode tw = decodeWrite (dataOf tw) slot := by
  rw [eq_transactionWord_of_and_registerMask h, decode_transactionWord_write, dataOf_transactionWord]

/-- A word that selects the row of an operation decodes to an operation of that row: the same one, but for the
operand. -/
theorem decode_of_selects_row {tw : TransactionWord} {i : Instr} (h : i.row.selects tw) :
    ∃ j, decode tw = .instr j ∧ j.row = i.row := by
  cases i with
  | rdFreq => exact ⟨_, decode_of_and_registerMask_read .freq h, rfl⟩
  | rdPhase => exact ⟨_, decode_of_and_registerMask_read .phase h, rfl⟩
  | rdDuty => exact ⟨_, decode_of_and_registerMask_read .duty h, rfl⟩
  | rdCount => exact ⟨_, decode_of_and_registerMask_read .count h, rfl⟩
  | rdXin => exact ⟨_, decode_of_and_registerMask_read .xin h, rfl⟩
  | rdSample => exact ⟨_, decode_of_and_registerMask_read .sample h, rfl⟩
  | rdStatus => exact ⟨_, decode_of_and_registerMask_read .status h, rfl⟩
  | wrFreq => exact ⟨_, decode_of_and_registerMask_write .freq h, rfl⟩
  | wrPhase => exact ⟨_, decode_of_and_registerMask_write .phase h, rfl⟩
  | wrDuty => exact ⟨_, decode_of_and_registerMask_write .duty h, rfl⟩
  | wrCount => exact ⟨_, decode_of_and_registerMask_write .count h, rfl⟩
  | wrXin => exact ⟨_, decode_of_and_registerMask_write .xin h, rfl⟩
  | pass =>
    have hword : tw = encode (.pass (imm16Of (dataOf tw))) := eq_encodeCommand_of_and_passMask h
    exact ⟨_, (congrArg decode hword).trans (decode_encode _), rfl⟩
  | nop | sine | ramp | tri | pwm | qx | reset =>
    exact ⟨_, (congrArg decode (eq_encode_of_full_mask rfl h)).trans (decode_encode _), rfl⟩

end Sys2Proof
end

section
/-! PROOFS. The statements about the encoding: the decoder against the opcode table, and the data of a read
(30_encoding.md R91, R95, R96). -/

namespace Sys2Proof

/-- The operand of `PASS` is `TW[31:16]` (30_encoding.md R96). -/
theorem imm16Of_dataOf (tw : TransactionWord) : imm16Of (dataOf tw) = tw.extractLsb' 16 16 :=
  BitVec.extractLsb'_extractLsb'_of_le (by decide)

/-- Settles O3: a decoded word is a read of its slot or an encoding, and both select the row of their operation; a word
that selects a row has every field of it but the operand. -/
theorem decoderAgreesWithOpcodeTable : Obligations.DecoderAgreesWithOpcodeTable := by
  refine fun tw => ⟨fun i h => ⟨selects_row_of_decode h, mem_opcodeRows_iff.2 ⟨i, rfl⟩⟩, ?_, ?_, fun m h => ?_⟩
  · intro row hrow hselects
    obtain ⟨i, rfl⟩ := mem_opcodeRows_iff.1 hrow
    exact decode_of_selects_row hselects
  · rintro d (h | h | h | h | h) <;> exact (dataOf_of_decode rfl h).symm
  · rw [← imm16Of_dataOf, dataOf_of_decode (slot := .cmd) rfl h, imm16Of_commandWord]

/-- Settles O5: a read of a slot is decoded from the slot alone, and a reserved index from the index alone. -/
theorem readDataIsIgnored : Obligations.ReadDataIsIgnored := by
  intro idx d d'
  cases hslot : Slot.ofIndex idx with
  | none => rw [decode_of_reserved (by simpa using hslot), decode_of_reserved (by simpa using hslot)]
  | some slot => rw [← Slot.index_of_ofIndex hslot, decode_transactionWord_read, decode_transactionWord_read]

end Sys2Proof
end

section
/-! SUPPORT. The accesses the slot map forbids and the word a read returns, said once (10_state.md R32, R38;
40_register_access.md R120, R131 to R133). -/

namespace Sys2Proof

/-- The reserved indices are those from 8 on (10_state.md R32). -/
theorem Slot.ofIndex_eq_none_iff {idx : SlotIndex} : Slot.ofIndex idx = none ↔ 8 ≤ idx.toNat := by
  revert idx
  decide

/-- An access that the slot map forbids decodes to `AddrErr`, whatever its data (40_register_access.md R133). -/
theorem decode_of_forbidden {rw : Bool} {idx : SlotIndex} (d : Word)
    (h : (rw = false ∧ idx.toNat = 5) ∨ (rw = true ∧ (idx.toNat = 6 ∨ idx.toNat = 7)) ∨ 8 ≤ idx.toNat) :
    decode (transactionWord rw idx d) = .illegal .addrErr := by
  have hslot (slot : Slot) (hidx : idx.toNat = slot.index.toNat) : idx = slot.index := BitVec.eq_of_toNat_eq hidx
  obtain ⟨rfl, hcmd⟩ | ⟨rfl, hsample | hstatus⟩ | hreserved := h
  · rw [hslot .cmd hcmd, decode_transactionWord_read, decodeRead]
  · rw [hslot .sample hsample, decode_transactionWord_write, decodeWrite]
  · rw [hslot .status hstatus, decode_transactionWord_write, decodeWrite]
  · exact decode_of_reserved (by simpa using Slot.ofIndex_eq_none_iff.2 hreserved)

namespace Machine

/-- A rejected transaction raises its cause, and returns 0 if it is a read (60_exceptions.md R203). -/
theorem State.reject_eq (s : State) (rw : Bool) (c : Cause) :
    s.reject rw c = { s.raise c with reads := if rw then s.reads else s.reads ++ [0] } := by
  cases rw with
  | false => simp [State.respond]
  | true => simp [State.raise_eq]

/-- A read answers the value of its slot and records it, and nothing else changes (40_register_access.md R120). -/
theorem exec_of_decodeRead {slot : Slot} {i : Instr} (h : decodeRead slot = .instr i) (s : State) :
    exec i s = .next { s with reads := s.reads ++ [s.slotValue slot] } := by
  cases slot <;> cases h <;> rfl

/-- `SAMPLE` reads as the word of its signed value (40_register_access.md R131). -/
theorem State.slotValue_sample (s : State) : s.slotValue .sample = BitVec.ofInt 32 s.sample.toInt := rfl

/-- Four bits below 28 zeros are the word of the number they write. -/
theorem append_four_bits (b3 b2 b1 b0 : Bool) :
    (0 : BitVec 28) ++ BitVec.ofBool b3 ++ BitVec.ofBool b2 ++ BitVec.ofBool b1 ++ BitVec.ofBool b0 =
      BitVec.ofNat 32 (b3.toNat * 8 + b2.toNat * 4 + b1.toNat * 2 + b0.toNat) := by
  revert b3 b2 b1 b0
  decide

/-- `STATUS` reads as the number its four bits write (40_register_access.md R132). -/
theorem State.slotValue_status (s : State) :
    s.slotValue .status = BitVec.ofNat 32
      (s.errAddr.toNat * 8 + s.errIllCmd.toNat * 4 + s.errOverrun.toNat * 2 + if s.count = 0 then 1 else 0) := by
  have hdone : s.done.toNat = if s.count = 0 then 1 else 0 := Bool.cond_decide (s.count = 0) 1 0
  rw [← hdone]
  exact append_four_bits s.errAddr s.errIllCmd s.errOverrun s.done

end Machine
end Sys2Proof
end

section
/-! PROOFS. The statements about register access: the forbidden accesses, and the reads and writes
(40_register_access.md R120, R133). -/

namespace Sys2Proof.Machine

/-- Settles O8: the decoder refuses each forbidden access with `AddrErr`, and a refused transaction is rejected. -/
theorem forbiddenAccessRaisesAddrErr : Obligations.ForbiddenAccessRaisesAddrErr := by
  intro s rw idx d rest hin hforbidden
  rw [step_of_illegal hin (decode_of_forbidden d hforbidden), rwOf_transactionWord, State.reject_eq]
  simp [State.raise_eq, State.dropEvent, hin]

/-- Settles O50: a write is its register's setter, and a read records the value of its slot. -/
theorem registerAccessReadsAndWrites : Obligations.RegisterAccessReadsAndWrites := by
  intro s d
  refine ⟨rfl, rfl, rfl, rfl, rfl, ?_, ?_, ?_, ?_, ?_, ?_, ?_⟩
  · exact exec_of_decodeRead (slot := .freq) rfl s
  · exact exec_of_decodeRead (slot := .phase) rfl s
  · exact exec_of_decodeRead (slot := .duty) rfl s
  · exact exec_of_decodeRead (slot := .count) rfl s
  · exact exec_of_decodeRead (slot := .xin) rfl s
  · rw [exec_of_decodeRead (slot := .sample) rfl, State.slotValue_sample]
  · rw [exec_of_decodeRead (slot := .status) rfl, State.slotValue_status]

end Sys2Proof.Machine
end

section
/-! SUPPORT. The oscillator commands and the waveform values, said once: the next state on both sides of the gate, the
samples that no mode rounds, and the numerator of each waveform as a number (41_oscillator.md R142, R146, R147, R152,
R154, R161). -/

namespace Sys2Proof.Machine

/-! ## The next state of an oscillator command -/

/-- At `COUNT` = 0 an oscillator command sets `ERR.OVERRUN` and changes nothing else (41_oscillator.md R146). -/
theorem exec_oscillator_overrun {i : Instr} {s : State} (hi : i.isOscillator = true) (hs : s.count = 0) :
    exec i s = .next { s with errOverrun := true } := by
  obtain ⟨a, k, -, hexec⟩ := exec_oscillator hi s
  rw [hexec, State.oscCommand_overrun hs]

/-- At `COUNT` > 0 an oscillator command emits its sample, advances the phase and counts (41_oscillator.md R142). -/
theorem exec_oscillator_executes {i : Instr} {s : State} (hi : i.isOscillator = true) (hs : s.count ≠ 0) :
    exec i s = .next { s with
      sample := oscSample s.qround i s.phase s.duty
      out := s.out ++ [oscSample s.qround i s.phase s.duty]
      phase := s.phase + s.freq
      count := s.count - 1 } := by
  obtain ⟨a, k, hwave, hexec⟩ := exec_oscillator hi s
  have hsample : oscSample s.qround i s.phase s.duty = quantize s.qround a k := by rw [oscSample, hwave]
  rw [hexec, State.oscCommand_executes hs, hsample]

/-- Adding the word of `−f` steps back by `f`, wrapping below 0 (41_oscillator.md R145). -/
theorem toNat_add_ofInt_neg (p : Word) {f : Nat} (hf : f < 2 ^ 32) :
    (p + BitVec.ofInt 32 (-(f : Int))).toNat = if f ≤ p.toNat then p.toNat - f else p.toNat + 2 ^ 32 - f := by
  have hp := p.isLt
  rw [BitVec.toNat_add, BitVec.toNat_ofInt]
  split <;> omega

/-! ## Values that every mode quantizes exactly (42_quantizer.md R171) -/

/-- No mode rounds a multiple of `2^d`. -/
theorem rnd_mul_two_pow (mode : QRound) (q : Int) (d : Nat) : rnd mode (q * 2 ^ d) d = q := by
  have hd : 0 < 2 ^ d := Nat.two_pow_pos d
  have hsign : (q * 2 ^ d).sign = q.sign := by
    rw [Int.sign_mul, Int.sign_eq_one_of_pos (show (0 : Int) < 2 ^ d by positivity), Int.mul_one]
  have habs : (q * 2 ^ d).natAbs = q.natAbs * 2 ^ d := by simp [Int.natAbs_mul, Int.natAbs_pow]
  cases mode with
  | trunc => rw [rnd_trunc, rndTrunc, hsign, habs, Nat.mul_div_cancel _ hd, Int.sign_mul_natAbs]
  | nearestAway =>
    have hhalf : 2 ^ d / 2 / 2 ^ d = 0 := Nat.div_eq_of_lt (Nat.div_lt_self hd (by decide))
    rw [rnd_nearestAway, rndNearestAway, hsign, habs, Nat.add_comm, Nat.add_mul_div_right _ _ hd, hhalf, Nat.zero_add,
      Int.sign_mul_natAbs]
  | nearestEven => simp [rndNearestEven]

/-- Every mode scales the value `q / 2^12` to `q`. -/
theorem scaled_of_exact (mode : QRound) {a q : Int} {k : Nat} (h : a * 2 ^ 12 = q * 2 ^ k) : scaled mode a k = q := by
  obtain hk | hk := Nat.lt_or_ge 12 k
  · obtain ⟨j, rfl⟩ := Nat.exists_eq_add_of_le' hk.le
    rw [pow_add, ← mul_assoc] at h
    rw [scaled_rounded mode a hk, Nat.add_sub_cancel, mul_right_cancel₀ (by positivity) h, rnd_mul_two_pow]
  · obtain ⟨j, hj⟩ := Nat.exists_eq_add_of_le' hk
    rw [hj, pow_add, ← mul_assoc] at h
    rw [scaled_exact mode a hk, hj, Nat.add_sub_cancel]
    exact mul_right_cancel₀ (by positivity) h

/-- A waveform value in [−1, 1] that is `q / 2^12` has the sample `q` under every mode. -/
theorem signed_oscSample_of_exact (mode : QRound) {i : Instr} {p d : Word} {a q : Int} {k : Nat}
    (hwave : waveformValue i p d = some (a, k)) (hexact : a * 2 ^ 12 = q * 2 ^ k) (hunit : |a| ≤ 2 ^ k) :
    signed (oscSample mode i p d) = q := by
  have hpos : (0 : Int) < 2 ^ k := by positivity
  obtain ⟨hlow, hhigh⟩ := abs_le.1 hunit
  have hlo : -2 ^ 12 ≤ q := le_of_mul_le_mul_right (by linarith) hpos
  have hhi : q ≤ 2 ^ 12 := le_of_mul_le_mul_right (by linarith) hpos
  simp only [oscSample, hwave, quantize]
  rw [scaled_of_exact mode hexact, signed_wrap16_of_fits (by linarith) (by linarith)]

/-- The phase words of the document's test points (41_oscillator.md R163). -/
def testPoints : List Word := [0, 0x40000000, 0x80000000, 0xC0000000]

/-- A property of all four test points, one by one: so `decide` need not range over all words. -/
theorem forall_mem_testPoints {P : Word → Prop} :
    (∀ p ∈ testPoints, P p) ↔ P 0 ∧ P 0x40000000 ∧ P 0x80000000 ∧ P 0xC0000000 := by
  simp [testPoints]

/-- Where the values of a waveform at the test points are multiples of `2^−12` in [−1, 1], its samples there are the
values times 4096. -/
theorem map_testPoints_of_exact (mode : QRound) {i : Instr} {d : Word} (numerator : Word → Int) {k : Nat}
    (hwave : ∀ p, waveformValue i p d = some (numerator p, k))
    (hexact : ∀ p ∈ testPoints, 2 ^ k ∣ numerator p * 2 ^ 12 ∧ |numerator p| ≤ 2 ^ k) :
    (testPoints.map fun p => signed (oscSample mode i p d)) =
      testPoints.map fun p => numerator p * 2 ^ 12 / 2 ^ k := by
  refine List.map_congr_left fun p hp => ?_
  obtain ⟨hdvd, hunit⟩ := hexact p hp
  exact signed_oscSample_of_exact mode (hwave p) (Int.ediv_mul_cancel hdvd).symm hunit

/-! ## The sine numerator (41_oscillator.md R147) -/

/-- The quadrant is the top two bits of the phase word. -/
theorem toNat_quadrantOf (p : Word) : (quadrantOf p).toNat = p.toNat / 2 ^ 30 := by
  rw [quadrantOf, BitVec.extractLsb'_toNat, Nat.shiftRight_eq_div_pow]
  omega

/-- The table index is the eight bits below the quadrant. -/
theorem toNat_sineIndexOf (p : Word) : (sineIndexOf p).toNat = p.toNat / 2 ^ 22 % 256 := by
  rw [sineIndexOf, BitVec.extractLsb'_toNat, Nat.shiftRight_eq_div_pow]

/-- The sine numerator reads the quadrant and the table index, and no other bit of the phase word. -/
theorem sinq_congr {p p' : Word} (hquadrant : quadrantOf p = quadrantOf p') (hindex : sineIndexOf p = sineIndexOf p') :
    sinq p = sinq p' := by
  rw [sinq, sinq, sinqOf, sinqOf, hquadrant, hindex]

/-- No number of the table is above 1.0, checked on its four parts and its last entry (41_oscillator.md R148). -/
theorem le_of_mem_sintab : ∀ x ∈ sintab, x ≤ 32768 := by
  simp only [sintab, List.forall_mem_append]
  exact ⟨by decide, by decide, by decide, by decide, by decide⟩

/-- An entry read from the table is between 0 and 1.0; past its end it reads 0. -/
theorem tableEntry_sintab_mem_Icc (k : Nat) : tableEntry sintab k ∈ Set.Icc 0 32768 := by
  have hget : sintab.getD k 0 ≤ 32768 := by
    rw [List.getD_eq_getElem?_getD]
    cases h : sintab[k]? with
    | none => exact Nat.zero_le _
    | some x => exact le_of_mem_sintab x (List.mem_of_getElem? h)
  exact ⟨Int.natCast_nonneg _, Int.ofNat_le.2 hget⟩

/-- The sine numerator is a table entry or its opposite, by the quadrant. -/
theorem sinq_eq (p : Word) :
    sinq p =
      if p.toNat / 2 ^ 30 = 0 then tableEntry sintab (p.toNat / 2 ^ 22 % 256)
      else if p.toNat / 2 ^ 30 = 1 then tableEntry sintab (256 - p.toNat / 2 ^ 22 % 256)
      else if p.toNat / 2 ^ 30 = 2 then -tableEntry sintab (p.toNat / 2 ^ 22 % 256)
      else -tableEntry sintab (256 - p.toNat / 2 ^ 22 % 256) := by
  rw [sinq, sinqOf, toNat_quadrantOf, toNat_sineIndexOf]
  split <;> simp_all

/-- The sine numerator is at most 1.0 in absolute value. -/
theorem sinq_mem_Icc (p : Word) : sinq p ∈ Set.Icc (-32768) 32768 := by
  have hentry : ∃ k, sinq p = tableEntry sintab k ∨ sinq p = -tableEntry sintab k := by
    rw [sinq_eq]
    split_ifs
    · exact ⟨_, .inl rfl⟩
    · exact ⟨_, .inl rfl⟩
    · exact ⟨_, .inr rfl⟩
    · exact ⟨_, .inr rfl⟩
  obtain ⟨k, h | h⟩ := hentry <;> obtain ⟨hlo, hhi⟩ := tableEntry_sintab_mem_Icc k <;> rw [h]
  · exact ⟨by linarith, hhi⟩
  · exact ⟨by linarith, by linarith⟩

/-! ## The ramp, triangle and pwm numerators (41_oscillator.md R152, R154, R161) -/

/-- Inverting the top bit of a word below `2^32` adds half the range modulo the range. -/
theorem xor_topBit {n : Nat} (hn : n < 2 ^ 32) : n ^^^ 2 ^ 31 = (n + 2 ^ 31) % 2 ^ 32 := by
  have hlow : (n ^^^ 2 ^ 31) % 2 ^ 31 = n % 2 ^ 31 := by rw [Nat.xor_mod_two_pow, Nat.mod_self, Nat.xor_zero]
  have htop : (n ^^^ 2 ^ 31) / 2 ^ 31 = (n / 2 ^ 31) ^^^ 1 := by
    rw [Nat.xor_div_two_pow, Nat.div_self (Nat.two_pow_pos 31)]
  have hbit : n / 2 ^ 31 = 0 ∨ n / 2 ^ 31 = 1 := by omega
  obtain hbit | hbit := hbit <;> rw [hbit] at htop
  · rw [Nat.zero_xor] at htop
    omega
  · rw [Nat.xor_self] at htop
    omega

/-- A word with its top bit inverted is, as a signed number, the word less `2^31`. -/
theorem toInt_xor_topBit (p : Word) : (p ^^^ 0x80000000).toInt = (p.toNat : Int) - 2 ^ 31 := by
  have hp := p.isLt
  have hxor : (p ^^^ 0x80000000).toNat = (p.toNat + 2 ^ 31) % 2 ^ 32 := (BitVec.toNat_xor ..).trans (xor_topBit hp)
  rw [BitVec.toInt_eq_toNat_cond, hxor]
  split <;> omega

theorem rampNumerator_eq (p : Word) : rampNumerator p = (p.toNat : Int) - 2 ^ 31 := rfl

/-- The rising half of the triangle. -/
theorem triNumerator_of_lt {p : Word} (h : p.toNat < 2 ^ 31) : triNumerator p = (p.toNat : Int) - 2 ^ 30 := if_pos h

/-- The falling half of the triangle. -/
theorem triNumerator_of_ge {p : Word} (h : 2 ^ 31 ≤ p.toNat) : triNumerator p = 3 * 2 ^ 30 - (p.toNat : Int) :=
  if_neg (not_lt.2 h)

/-- The pwm numerator is +1 strictly above the duty word, and only there. -/
theorem pwmNumerator_eq_one_iff {p d : Word} : pwmNumerator p d = 1 ↔ d.toNat < p.toNat := by
  unfold pwmNumerator
  split <;> simp_all

/-- The pwm numerator is −1 at the duty word and below it. -/
theorem pwmNumerator_of_le {p d : Word} (h : p.toNat ≤ d.toNat) : pwmNumerator p d = -1 := if_neg (not_lt.2 h)

/-- The phase words at which the pwm value is +1, as numbers: those above the duty word. -/
theorem filter_pwm_high (d : Word) :
    ((Finset.range (2 ^ 32)).filter fun n => waveformValue .pwm (BitVec.ofNat 32 n) d = some (1, 0)) =
      Finset.Ioo d.toNat (2 ^ 32) := by
  ext n
  have hvalue : waveformValue .pwm (BitVec.ofNat 32 n) d = some (1, 0) ↔ d.toNat < (BitVec.ofNat 32 n).toNat := by
    simp [waveformValue, pwmNumerator_eq_one_iff]
  rw [Finset.mem_filter, Finset.mem_range, Finset.mem_Ioo, hvalue, BitVec.toNat_ofNat, and_comm]
  exact and_congr_left fun hn => by rw [Nat.mod_eq_of_lt hn]

/-! ## The angle of a phase word (41_oscillator.md R141) -/

/-- The angle of the number `n` is above `x` exactly when `n` is above the number of `x`. -/
theorem lt_angle_iff (x : ℝ) (n : Nat) : x < 2 * Real.pi * n / 2 ^ 32 ↔ x * 2 ^ 32 / (2 * Real.pi) < n := by
  rw [lt_div_iff₀ (by positivity), div_lt_iff₀ Real.two_pi_pos, mul_comm (n : ℝ)]

/-- The angle of the number `n` as a part of π. -/
theorem angle_eq_pi_mul (n : Nat) : 2 * Real.pi * n / 2 ^ 32 = Real.pi * (n / 2 ^ 31) := by ring

/-- The slope of the triangle, on an angle given as a part of π. -/
theorem two_div_pi_mul_pi_mul (x : ℝ) : 2 / Real.pi * (Real.pi * x) = 2 * x := by
  rw [← mul_assoc, div_mul_cancel₀ _ Real.pi_ne_zero]

/-- The angle of a phase word reaches π at half the range. -/
theorem pi_le_angle_iff (n : Nat) : Real.pi ≤ 2 * Real.pi * n / 2 ^ 32 ↔ 2 ^ 31 ≤ n := by
  rw [angle_eq_pi_mul, le_mul_iff_one_le_right Real.pi_pos, one_le_div₀ (by positivity)]
  exact_mod_cast Iff.rfl

/-- The words of the angles below 2π fit in 32 bits (41_oscillator.md R160). -/
theorem floor_dutyWord_lt {d : ℝ} (h0 : 0 ≤ d) (hd : d < 2 * Real.pi) :
    ⌊d * 2 ^ 32 / (2 * Real.pi)⌋₊ < 2 ^ 32 := by
  have hpi := Real.two_pi_pos
  rw [Nat.floor_lt (by positivity), div_lt_iff₀ hpi]
  push_cast
  linarith

end Sys2Proof.Machine
end

section
/-! PROOFS. The statements about the oscillator: the gate by `COUNT`, the waveforms and their test points, and the
frequencies 0 and below (41_oscillator.md R145 to R147, R152, R154, R160, R161, R163). -/

namespace Sys2Proof.Machine

/-- Settles O27, from the next state of an oscillator command on both sides of the gate. -/
theorem oscillatorCommandsAreGatedByCount : Obligations.OscillatorCommandsAreGatedByCount :=
  ⟨fun _ _ => exec_oscillator_overrun, fun _ _ hi hs => ⟨_, exec_oscillator_executes hi hs⟩, fun _ => ⟨_, rfl⟩,
    fun _ _ => rfl⟩

/-- Settles O29: equal top 10 bits give equal quadrants and equal table indices. -/
theorem sineReadsTheQuarterWaveTable : Obligations.SineReadsTheQuarterWaveTable := by
  refine ⟨fun p => ⟨sinq_eq p, (sinq_mem_Icc p).1, (sinq_mem_Icc p).2⟩, fun p p' h => ?_⟩
  have hquadrant : (quadrantOf p).toNat = (quadrantOf p').toNat := by
    rw [toNat_quadrantOf, toNat_quadrantOf]
    omega
  have hindex : (sineIndexOf p).toNat = (sineIndexOf p').toNat := by rw [toNat_sineIndexOf, toNat_sineIndexOf, h]
  exact sinq_congr (BitVec.eq_of_toNat_eq hquadrant) (BitVec.eq_of_toNat_eq hindex)

/-- Settles O38, counting the phase words above the duty word. -/
theorem pwmComparesStrictlyUnsigned : Obligations.PwmComparesStrictlyUnsigned := by
  refine fun d => ⟨fun p => rfl, by rw [waveformValue, pwmNumerator_of_le le_rfl], ?_⟩
  rw [filter_pwm_high, Nat.card_Ioo, Nat.sub_right_comm]

/-- Settles O39: the angle divided by π is the phase word over `2^31`. -/
theorem rampFollowsTheDocument : Obligations.RampFollowsTheDocument := by
  intro p
  have hp := p.isLt
  have hreal : (rampNumerator p : ℝ) / 2 ^ 31 = (2 * Real.pi * p.toNat / 2 ^ 32) / Real.pi - 1 := by
    rw [rampNumerator_eq, angle_eq_pi_mul, mul_div_cancel_left₀ _ Real.pi_ne_zero]
    push_cast
    ring
  refine ⟨rfl, rfl, hreal, ?_, ?_, (toInt_xor_topBit p).symm, ?_, ?_⟩
  all_goals rw [rampNumerator_eq]
  · omega
  · omega
  · bv_omega
  · bv_omega

/-- Settles O40, on the two branches of the triangle, which the angle π divides. -/
theorem triangleFollowsTheDocument : Obligations.TriangleFollowsTheDocument := by
  refine ⟨by decide, fun p => ⟨triNumerator_of_lt, triNumerator_of_ge, rfl, fun h => ?_, fun h => ?_, ?_⟩⟩
  · have hlt : p.toNat < 2 ^ 31 := by rwa [← not_le, pi_le_angle_iff, not_le] at h
    rw [triNumerator_of_lt hlt, angle_eq_pi_mul, two_div_pi_mul_pi_mul]
    push_cast
    ring
  · rw [triNumerator_of_ge ((pi_le_angle_iff _).1 h), angle_eq_pi_mul, neg_mul, two_div_pi_mul_pi_mul]
    push_cast
    ring
  · have hp := p.isLt
    obtain hlt | hge := Nat.lt_or_ge p.toNat (2 ^ 31)
    · rw [triNumerator_of_lt hlt]
      bv_omega
    · rw [triNumerator_of_ge hge]
      bv_omega

/-- Settles O41: a natural number is above a real one exactly when it is above its floor. -/
theorem dutyWordRealisesTheDutyAngle : Obligations.DutyWordRealisesTheDutyAngle := by
  refine ⟨fun d p h0 hd => ?_, fun p => pwmNumerator_of_le ?_, fun d => pwmNumerator_of_le (Nat.zero_le _), fun s => rfl⟩
  · have hfits := floor_dutyWord_lt h0 hd
    refine ⟨hfits, ?_⟩
    rw [pwmNumerator_eq_one_iff, BitVec.toNat_ofNat, Nat.mod_eq_of_lt hfits, Nat.floor_lt (by positivity), lt_angle_iff]
  · exact Nat.le_of_lt_succ p.isLt

/-- Settles O28: the twelve values are exact in 12 fraction bits, so no mode rounds their samples. -/
theorem testPointsAreExact : Obligations.TestPointsAreExact := by
  refine ⟨by decide, by decide, by decide, by decide, by decide, by decide, by decide, by decide, by decide, by decide,
    by decide, by decide, fun mode d => ⟨?_, ?_, ?_⟩⟩
  · exact (map_testPoints_of_exact mode sinq (fun _ => rfl) (forall_mem_testPoints.2 (by decide))).trans (by decide)
  · exact (map_testPoints_of_exact mode rampNumerator (fun _ => rfl) (forall_mem_testPoints.2 (by decide))).trans
      (by decide)
  · exact (map_testPoints_of_exact mode triNumerator (fun _ => rfl) (forall_mem_testPoints.2 (by decide))).trans
      (by decide)

/-- Settles O44: an executed command raises nothing and moves the phase word by 0 or by `−f`, and the four samples at
phase word 0 are exact. -/
theorem zeroAndNegativeFrequencyAreLegal : Obligations.ZeroAndNegativeFrequencyAreLegal := by
  refine ⟨fun i s hi hs hfreq => ?_, fun mode d => ⟨?_, ?_, ?_, ?_⟩, fun i s f hi hs hf hfreq => ?_⟩
  · rw [exec_oscillator_executes hi hs, hfreq, BitVec.ofNat_eq_ofNat, BitVec.add_zero]
  · exact signed_oscSample_of_exact mode (i := .sine) rfl (by decide) (by decide)
  · exact signed_oscSample_of_exact mode (i := .ramp) rfl (by decide) (by decide)
  · exact signed_oscSample_of_exact mode (i := .tri) rfl (by decide) (by decide)
  · have hpwm : waveformValue .pwm 0 d = some (-1, 0) := by rw [waveformValue, pwmNumerator_of_le (Nat.zero_le _)]
    exact signed_oscSample_of_exact mode hpwm (by decide) (by decide)
  · refine ⟨_, exec_oscillator_executes hi hs, rfl, rfl, rfl, ?_⟩
    simpa [hfreq] using toNat_add_ofInt_neg s.phase hf

end Sys2Proof.Machine
end

section
/-! SUPPORT. The command words of one code, said once: the fields of a command word as numbers, and which words with a
given code are legal (30_encoding.md R93, R97). -/

namespace Sys2Proof

/-- `CW[7:0]` as a number. -/
theorem toNat_opOf (cw : Word) : (opOf cw).toNat = cw.toNat % 2 ^ 8 := BitVec.extractLsb'_toNat 0 8 cw

/-- `CW[15:8]` as a number. -/
theorem toNat_zeroOf (cw : Word) : (zeroOf cw).toNat = cw.toNat / 2 ^ 8 % 2 ^ 8 := by
  rw [zeroOf, BitVec.extractLsb'_toNat, Nat.shiftRight_eq_div_pow]

/-- `CW[31:16]` as a word of its number. -/
theorem imm16Of_eq_ofNat (cw : Word) : imm16Of cw = BitVec.ofNat 16 (cw.toNat / 2 ^ 16) := by
  rw [imm16Of, BitVec.extractLsb', Nat.shiftRight_eq_div_pow]

/-- A write to slot 5 is its command word. -/
theorem decode_write_cmd (cw : Word) : decode (transactionWord true 5 cw) = decodeCommand cw :=
  decode_transactionWord_write .cmd cw

/-- A code without an immediate has one legal command word. -/
theorem decodeCommand_of_fixed_code {cw : Word} {op : BitVec 8} {i : Instr} (hcode : opOf cw = op) (hop : op ≠ 6)
    (hlegal : decodeCommand (commandWord 0 op) = .instr i) :
    decodeCommand cw = if cw = commandWord 0 op then .instr i else .illegal .illCmd := by
  by_cases hcw : cw = commandWord 0 op
  · rw [if_pos hcw, hcw, hlegal]
  · rw [if_neg hcw, decodeCommand]
    by_cases hzero : zeroOf cw = 0
    · have himm : imm16Of cw ≠ 0 := fun himm => hcw (by rw [← commandWord_fields hzero, himm, hcode])
      rw [if_neg (not_not.2 hzero), if_pos ⟨hcode ▸ hop, himm⟩]
    · rw [if_pos hzero]

/-- The code of `PASS` takes every immediate, under a `zero` field of 0. -/
theorem decodeCommand_of_pass_code {cw : Word} (hcode : opOf cw = 6) :
    decodeCommand cw = if zeroOf cw = 0 then .instr (.pass (imm16Of cw)) else .illegal .illCmd := by
  simp [decodeCommand, hcode, ite_not]

end Sys2Proof
end

section
/-! SUPPORT. The quantizer, said once: what each rounding mode gives, the word and the value of a sample, and the
commands `QX` and `PASS` (42_quantizer.md R170 to R178). -/

namespace Sys2Proof.Machine

/-! ## The integers closest to `a / D` -/

/-- The distances of `a` from two multiples of `D` bound how far apart the multiples are. -/
theorem abs_sub_lt_of_near {a z w D m : Int} (hD : 0 < D) (h : |a - w * D| + |a - z * D| < m * D) : |z - w| < m := by
  refine lt_of_mul_lt_mul_right (lt_of_le_of_lt ?_ h) hD.le
  calc |z - w| * D = |(a - w * D) - (a - z * D)| := by rw [sub_sub_sub_cancel_left, ← sub_mul, abs_mul, abs_of_pos hD]
    _ ≤ |a - w * D| + |a - z * D| := abs_sub _ _

/-- Where one integer is closest and no tie, every closest integer is that one. -/
theorem eq_of_nearest_of_lt {a z w D : Int} (hz : 2 * |a - z * D| < D) (hw : 2 * |a - w * D| ≤ D) : z = w := by
  have hD : 0 < D := by have := abs_nonneg (a - z * D); omega
  exact sub_eq_zero.1 (Int.abs_lt_one_iff.1 (abs_sub_lt_of_near (a := a) hD (by omega)))

/-- With even integers at a tie, there is one closest integer. -/
theorem eq_of_nearest_of_even {a z w D : Int} (hD : 0 < D) (hz : 2 * |a - z * D| ≤ D) (hw : 2 * |a - w * D| ≤ D)
    (hzeven : 2 * |a - z * D| = D → z % 2 = 0) (hweven : 2 * |a - w * D| = D → w % 2 = 0) : z = w := by
  obtain hlt | htie := hz.lt_or_eq
  · exact eq_of_nearest_of_lt hlt hw
  obtain hlt | htie' := hw.lt_or_eq
  · exact (eq_of_nearest_of_lt hlt hz).symm
  have hclose : |z - w| < 2 := abs_sub_lt_of_near (a := a) hD (by omega)
  have hz2 := hzeven htie
  have hw2 := hweven htie'
  rw [abs_lt] at hclose
  omega

/-- The distances from `a` to the multiples of `D` are those from `−a` to the opposite multiples. -/
theorem abs_neg_sub_neg_mul (a z D : Int) : |-a - -z * D| = |a - z * D| := by
  rw [neg_mul, neg_sub_neg, abs_sub_comm]

/-! ## `TRUNC` (42_quantizer.md R171) -/

/-- `TRUNC` is odd. -/
theorem rndTrunc_neg (a : Int) (D : Nat) : rndTrunc (-a) D = -rndTrunc a D := by simp [rndTrunc]

/-- On a natural number `TRUNC` is the natural quotient. -/
theorem rndTrunc_natCast (n D : Nat) : rndTrunc n D = ((n / D : Nat) : Int) := by
  cases n with
  | zero => simp [rndTrunc]
  | succ n => rw [rndTrunc, Int.sign_natCast_of_ne_zero n.succ_ne_zero, Int.one_mul, Int.natAbs_natCast]

/-- `TRUNC` gives the next integer toward zero. -/
theorem rndTrunc_spec (a : Int) {D : Nat} (hD : 0 < D) :
    |rndTrunc a D| * D ≤ |a| ∧ |a| < (|rndTrunc a D| + 1) * D ∧ 0 ≤ a * rndTrunc a D := by
  have hnat (n : Nat) : |rndTrunc n D| * D ≤ |(n : Int)| ∧ |(n : Int)| < (|rndTrunc n D| + 1) * D ∧
      0 ≤ (n : Int) * rndTrunc n D := by
    rw [rndTrunc_natCast, Nat.abs_cast, Nat.abs_cast]
    refine ⟨?_, ?_, ?_⟩
    · exact_mod_cast Nat.div_mul_le_self n D
    · exact_mod_cast Nat.lt_mul_of_div_lt (Nat.lt_succ_self (n / D)) hD
    · positivity
  obtain ⟨n, rfl | rfl⟩ := a.eq_nat_or_neg
  · exact hnat n
  · simpa only [rndTrunc_neg, abs_neg, neg_mul_neg] using hnat n

/-! ## `NEAREST_AWAY` (42_quantizer.md R171) -/

/-- `NEAREST_AWAY` is odd. -/
theorem rndNearestAway_neg (a : Int) (D : Nat) : rndNearestAway (-a) D = -rndNearestAway a D := by
  simp [rndNearestAway]

/-- On a natural number `NEAREST_AWAY` is the natural quotient after adding half of `D`. -/
theorem rndNearestAway_natCast (n : Nat) {D : Nat} (hD : 0 < D) :
    rndNearestAway n D = (((n + D / 2) / D : Nat) : Int) := by
  cases n with
  | zero => simp [rndNearestAway, Nat.div_eq_of_lt (Nat.div_lt_self hD one_lt_two)]
  | succ n => rw [rndNearestAway, Int.sign_natCast_of_ne_zero n.succ_ne_zero, Int.one_mul, Int.natAbs_natCast]

/-- For even `D`, `NEAREST_AWAY` gives a closest integer, and at a tie the one further from zero. -/
theorem rndNearestAway_spec (a : Int) {D : Nat} (hD : 0 < D) (heven : 2 ∣ D) :
    2 * |a - rndNearestAway a D * D| ≤ D ∧
    (2 * |a - rndNearestAway a D * D| = D → |a| < |rndNearestAway a D * D|) := by
  have hnat (n : Nat) : 2 * |(n : Int) - rndNearestAway n D * D| ≤ D ∧
      (2 * |(n : Int) - rndNearestAway n D * D| = D → |(n : Int)| < |rndNearestAway n D * D|) := by
    rw [rndNearestAway_natCast n hD, ← Nat.cast_mul, Nat.abs_cast, Nat.abs_cast]
    have hlow := Nat.div_mul_le_self (n + D / 2) D
    have hhigh := Nat.lt_div_mul_add (a := n + D / 2) hD
    generalize (n + D / 2) / D * D = m at *
    obtain hle | hlt := abs_cases ((n : Int) - m) <;> omega
  obtain ⟨n, rfl | rfl⟩ := a.eq_nat_or_neg
  · exact hnat n
  · rw [rndNearestAway_neg, abs_neg_sub_neg_mul, neg_mul, abs_neg, abs_neg]
    exact hnat n

/-! ## `NEAREST_EVEN` (42_quantizer.md R171) -/

/-- `NEAREST_EVEN` gives a closest integer, and at a tie the even one. -/
theorem rndNearestEven_spec (a : Int) {D : Nat} (hD : 0 < D) :
    2 * |a - rndNearestEven a D * D| ≤ D ∧ (2 * |a - rndNearestEven a D * D| = D → rndNearestEven a D % 2 = 0) := by
  have hpos : 0 < (D : Int) := Int.natCast_pos.2 hD
  have hlow : 0 ≤ a - a / D * D := sub_nonneg.2 (Int.ediv_mul_le a hpos.ne')
  have hhigh : a - a / D * D < D := by linarith [Int.lt_ediv_add_one_mul_self a hpos]
  have hfloor : |a - a / D * D| = a - a / D * D := abs_of_nonneg hlow
  have hnext : |a - (a / D + 1) * D| = D - (a - a / D * D) := by
    rw [add_one_mul, ← sub_sub, abs_sub_comm, abs_of_nonneg (by linarith)]
  simp only [rndNearestEven]
  split_ifs with hbelow habove heven
  · rw [hfloor]; omega
  · rw [hnext]; omega
  · rw [hfloor]; omega
  · rw [hnext]; omega

/-- The closest integer of `−a` is the opposite of that of `a`, for parity is kept. -/
theorem rndNearestEven_neg (a : Int) {D : Nat} (hD : 0 < D) : rndNearestEven (-a) D = -rndNearestEven a D := by
  obtain ⟨hnear, htie⟩ := rndNearestEven_spec a hD
  obtain ⟨hnear', htie'⟩ := rndNearestEven_spec (-a) hD
  rw [← abs_neg_sub_neg_mul] at hnear htie
  exact eq_of_nearest_of_even (by omega) hnear' hnear htie' fun h => Int.neg_emod_two _ |>.trans (htie h)

/-- For even `D`, the two nearest modes differ at a tie only. -/
theorem rndNearestAway_eq_rndNearestEven {a : Int} {D : Nat} (hD : 0 < D) (heven : 2 ∣ D)
    (htie : 2 * |a - rndNearestEven a D * D| ≠ D) : rndNearestAway a D = rndNearestEven a D :=
  (eq_of_nearest_of_lt (lt_of_le_of_ne (rndNearestEven_spec a hD).1 htie) (rndNearestAway_spec a hD heven).1).symm

/-- Every mode is odd (42_quantizer.md R171). -/
theorem rnd_neg (mode : QRound) (a : Int) (d : Nat) : rnd mode (-a) d = -rnd mode a d := by
  cases mode with
  | trunc => exact rndTrunc_neg a _
  | nearestAway => exact rndNearestAway_neg a _
  | nearestEven => exact rndNearestEven_neg a (Nat.two_pow_pos d)

/-! ## The emitted word and its value (42_quantizer.md R172) -/

/-- A sample is its scaled integer modulo `2^16`. -/
theorem toNat_quantize (mode : QRound) (a : Int) (k : Nat) :
    ((quantize mode a k).toNat : Int) = scaled mode a k % 2 ^ 16 := by
  rw [quantize, wrap16, BitVec.toNat_ofInt, Int.toNat_of_nonneg (Int.emod_nonneg _ (by decide))]
  rfl

/-- The signed value of a sample is that of the two's complement word. -/
theorem signed_sample (v : Sample) :
    signed v = if v.toNat < 2 ^ 15 then (v.toNat : Int) else (v.toNat : Int) - 2 ^ 16 := by
  rw [signed, BitVec.toInt_eq_toNat_cond]
  split <;> split <;> omega

/-- The external value has 24 fraction bits, 12 of which are rounded away (42_quantizer.md R176, R177). -/
theorem quantize_xin (mode : QRound) (a : Int) : quantize mode a 24 = BitVec.ofInt 16 (rnd mode a 12) := by
  rw [quantize, scaled_rounded mode a (by decide), wrap16]

/-! ## The quantizer commands (42_quantizer.md R177, R178) -/

/-- `QX` emits the quantized external value, at any `COUNT`. -/
theorem exec_qx (s : State) : exec .qx s = .next (s.emit (quantize s.qround (signed s.xin) 24)) := rfl

/-- `PASS` emits its immediate, at any `COUNT`. -/
theorem exec_pass (m : Sample) (s : State) : exec (.pass m) s = .next (s.emit m) := rfl

/-- `QX` moves nothing that it reads, so the next one emits the same sample. -/
theorem exec_qx_twice {s t : State} (h : exec .qx s = .next t) : exec .qx t = .next (t.emit t.sample) := by
  cases (exec_qx s).symm.trans h
  rw [exec_qx, State.emit_qround, State.emit_xin, State.emit_sample]

end Sys2Proof.Machine
end

section
/-! PROOFS. The statements about the quantizer: the rounding modes, the wrap, and the commands `QX` and `PASS`
(42_quantizer.md R171, R172, R177, R178). -/

namespace Sys2Proof.Machine

/-- Settles O34: each mode by what it gives, for the even divisor `2^d`. -/
theorem roundingModesOfTheQuantizer : Obligations.RoundingModesOfTheQuantizer := by
  refine ⟨rfl, fun a d hd => ?_⟩
  have hpos : 0 < 2 ^ d := Nat.two_pow_pos d
  have heven : 2 ∣ 2 ^ d := dvd_pow_self 2 (by omega)
  have hcast : ((2 ^ d : Nat) : Int) = 2 ^ d := Nat.cast_pow 2 d
  have htrunc := rndTrunc_spec a hpos
  obtain ⟨haway, hawayTie⟩ := rndNearestAway_spec a hpos heven
  obtain ⟨hnear, hnearTie⟩ := rndNearestEven_spec a hpos
  have hdiffer := fun hne => not_not.1 (mt (rndNearestAway_eq_rndNearestEven (a := a) hpos heven) hne)
  rw [hcast] at htrunc haway hawayTie hnear hnearTie hdiffer
  exact ⟨fun mode => rnd_neg mode a d, fun mode q hq => hq ▸ rnd_mul_two_pow mode q d, htrunc, haway, hnear, hawayTie,
    hnearTie, hdiffer⟩

/-- Settles O35, on the word and the value of any sample. -/
theorem quantizerWrapsModulo65536 : Obligations.QuantizerWrapsModulo65536 :=
  ⟨fun mode a k => ⟨toNat_quantize mode a k, signed_sample _⟩, by decide, by decide, by decide, by decide⟩

/-- Settles O46: `QX` emits, and the one legal word with its code is 5. -/
theorem qxQuantizesTheExternalValue : Obligations.QxQuantizesTheExternalValue := by
  refine ⟨fun s => ?_, fun s t => exec_qx_twice, fun cw hcode => ?_, by decide⟩
  · rw [exec_qx, quantize_xin]
    rfl
  · have hop : opOf cw = 5 := BitVec.eq_of_toNat_eq ((toNat_opOf cw).trans hcode)
    rw [decode_write_cmd]
    exact decodeCommand_of_fixed_code hop (by decide) (by decide)

/-- Settles O47: `PASS` emits its immediate, and its legal words are those with a `zero` field of 0. -/
theorem passEmitsTheImmediate : Obligations.PassEmitsTheImmediate := by
  refine ⟨exec_pass, fun cw hcode => ?_, by decide, by decide⟩
  have hop : opOf cw = 6 := BitVec.eq_of_toNat_eq ((toNat_opOf cw).trans hcode)
  have hzero : zeroOf cw = 0 ↔ cw.toNat / 2 ^ 8 % 2 ^ 8 = 0 := by rw [← toNat_zeroOf, ← BitVec.toNat_inj]; rfl
  rw [decode_write_cmd, decodeCommand_of_pass_code hop, imm16Of_eq_ofNat]
  simp only [hzero]

end Sys2Proof.Machine
end

section
/-! SUPPORT. The control commands and the sticky flags, said once: what `NOP` and `RESET` answer, which words of a code
without an immediate decode, and what keeps a set flag (10_state.md R28, 43_control.md R190, R191). -/

namespace Sys2Proof.Machine

/-! ## The control commands -/

/-- `NOP` answers the state it found (43_control.md R190). -/
theorem exec_nop (s : State) : exec .nop s = .next s := rfl

/-- `RESET` answers the reset block (43_control.md R191). -/
theorem exec_reset (s : State) : exec .reset s = .next s.blockReset := rfl

/-- The reset block is a fixed point of the reset. -/
@[simp] theorem State.blockReset_blockReset (s : State) : s.blockReset.blockReset = s.blockReset := rfl

/-- Taking the host's event leaves the events after it. -/
theorem State.dropEvent_eq_of_input {s : State} {e : HostEvent} {es : List HostEvent} (hin : s.input = e :: es) :
    s.dropEvent = { s with input := es } := by
  rw [State.dropEvent, hin, List.tail_cons]

/-- A write to slot 5 of a word whose code takes no immediate is the operation for one word only. -/
theorem decode_write_cmd_of_fixed_code {cw : Word} {op : BitVec 8} {i : Instr} (hcode : cw.toNat % 2 ^ 8 = op.toNat)
    (hop : op ≠ 6) (hlegal : decodeCommand (commandWord 0 op) = .instr i) :
    decode (transactionWord true 5 cw) = if cw = commandWord 0 op then .instr i else .illegal .illCmd := by
  have hopOf : opOf cw = op := BitVec.eq_of_toNat_eq ((toNat_opOf cw).trans hcode)
  rw [decode_write_cmd, decodeCommand_of_fixed_code hopOf hop hlegal]

/-! ## A set flag stays set (10_state.md R28) -/

/-- Taking the host's event touches no flag. -/
@[simp] theorem State.dropEvent_flag (s : State) (c : Cause) : s.dropEvent.flag c = s.flag c := rfl

/-- Recording a returned word touches no flag. -/
@[simp] theorem State.respond_flag (s : State) (w : Word) (c : Cause) : (s.respond w).flag c = s.flag c := rfl

/-- `raise` sets the flag of its cause and leaves the other two (60_exceptions.md R203). -/
@[simp] theorem State.raise_flag (s : State) (c' c : Cause) : (s.raise c').flag c = (s.flag c || c' == c) := by
  cases c with
  | overrun => exact s.raise_errOverrun c'
  | illCmd => exact s.raise_errIllCmd c'
  | addrErr => exact s.raise_errAddr c'

/-- A rejected read or write sets the flag of its cause and leaves the other two (40_register_access.md R133). -/
@[simp] theorem State.reject_flag (s : State) (rw : Bool) (c' c : Cause) :
    (s.reject rw c').flag c = (s.flag c || c' == c) := by
  cases rw with
  | true => exact s.raise_flag c' c
  | false => exact s.raise_flag c' c

/-- An oscillator command raises `Overrun` or touches no flag (41_oscillator.md R146). -/
@[simp] theorem State.oscCommand_flag (s : State) (a : Int) (k : Nat) (c : Cause) :
    (s.oscCommand a k).flag c = (s.flag c || (s.done && Cause.overrun == c)) := by
  by_cases hs : s.count = 0
  · have hdone : s.done = true := beq_iff_eq.2 hs
    rw [State.oscCommand, if_pos hs, State.raise_flag, hdone, Bool.true_and]
  · have hdone : s.done = false := beq_eq_false_iff_ne.2 hs
    rw [State.oscCommand_executes hs, hdone, Bool.false_and, Bool.or_false]
    rfl

/-- No operation but `RESET` clears a flag (60_exceptions.md R207). -/
theorem Executes.keeps_flag {s t : State} {i : Instr} {c : Cause} (h : Executes s i t) (hi : i ≠ .reset)
    (hc : s.flag c = true) : t.flag c = true := by
  cases h with
  | reset => exact absurd rfl hi
  | oscillator => simp [hc]
  | _ => exact hc

/-- No transaction but `RESET` clears a flag: its operation keeps it, and a rejection sets one more. -/
theorem step_keeps_flag {s t : State} {tw : TransactionWord} {es : List HostEvent} {c : Cause}
    (hin : s.input = .transaction tw :: es) (hd : decode tw ≠ .instr .reset) (h : step s = .next t)
    (hc : s.flag c = true) : t.flag c = true := by
  cases hdecode : decode tw with
  | instr i =>
    rw [step_of_instr hin hdecode] at h
    exact (executes_of_exec h).keeps_flag (fun hi => hd (hi ▸ hdecode)) (by simpa using hc)
  | illegal c' =>
    rw [step_of_illegal hin hdecode] at h
    cases h
    simp [hc]

end Sys2Proof.Machine
end

section
/-! PROOFS. The statements about the control commands `NOP` and `RESET` (43_control.md R190, R191). -/

namespace Sys2Proof.Machine

/-- Settles O48: `NOP` is the identity, and its one legal word is 0. -/
theorem nopChangesNothing : Obligations.NopChangesNothing :=
  ⟨exec_nop, fun _ hcode => decode_write_cmd_of_fixed_code (op := 0) hcode (by decide) (by decide),
    State.reset, exec_nop State.reset, by decide, rfl⟩

/-- Settles O49: `RESET` and the reset input both answer `blockReset`, and any other transaction keeps a set flag. -/
theorem resetCommandClearsTheBlock : Obligations.ResetCommandClearsTheBlock := by
  refine ⟨exec_reset, fun s t h => ?_, fun s rest hin => ?_, fun s t tw rest c => step_keeps_flag,
    fun cw hcode => decode_write_cmd_of_fixed_code (op := 7) hcode (by decide) (by decide), ?_⟩
  · cases (exec_reset s).symm.trans h
    exact ⟨s.statusWord_blockReset, by rw [exec_reset, State.blockReset_blockReset]⟩
  · rw [step_of_resets hin rfl, exec_reset, State.dropEvent_eq_of_input hin]
  · exact ⟨_, _, exec_oscillator_overrun rfl rfl, by decide, exec_reset _, State.statusWord_blockReset _⟩

end Sys2Proof.Machine
end

section
/-! SUPPORT. What a transaction raises, said once: the command words the decoder refuses, the ones that are oscillator
commands, and each flag after a step as a function of the cause raised (30_encoding.md R97; 60_exceptions.md R201,
R204). -/

namespace Sys2Proof

/-! ## Refused command words and oscillator command words (30_encoding.md R97) -/

/-- `CW[31:16]` as a number. -/
theorem toNat_imm16Of (cw : Word) : (imm16Of cw).toNat = cw.toNat / 2 ^ 16 := by
  have hcw := cw.isLt
  rw [imm16Of_eq_ofNat, BitVec.toNat_ofNat]
  omega

/-- A command word with a non-zero `zero` field, an unassigned code, or an immediate that its code does not take is
refused. -/
theorem decodeCommand_of_illegal {cw : Word}
    (h : cw.toNat / 2 ^ 8 % 2 ^ 8 ≠ 0 ∨ 8 ≤ cw.toNat % 2 ^ 8 ∨ (cw.toNat / 2 ^ 16 ≠ 0 ∧ cw.toNat % 2 ^ 8 ≠ 6)) :
    decodeCommand cw = .illegal .illCmd := by
  rw [← toNat_zeroOf, ← toNat_opOf, ← toNat_imm16Of] at h
  unfold decodeCommand
  split
  next => rfl
  next hzero =>
  split
  next => rfl
  next himm =>
  have hcode : 8 ≤ (opOf cw).toNat := by
    obtain hz | hop | ⟨hi, hne⟩ := h
    · exact absurd (fun heq => hz (congrArg BitVec.toNat heq)) hzero
    · exact hop
    · exact absurd ⟨fun heq => hne (congrArg BitVec.toNat heq), fun heq => hi (congrArg BitVec.toNat heq)⟩ himm
  split
  case h_9 => rfl
  all_goals omega

/-- The command words 1 to 4 are the oscillator commands (30_encoding.md R96). -/
theorem decodeCommand_of_oscillator_code {cw : Word} (h1 : 1 ≤ cw.toNat) (h4 : cw.toNat ≤ 4) :
    ∃ i, decodeCommand cw = .instr i ∧ i.isOscillator = true := by
  have hcw (n : Word) (hn : cw.toNat = n.toNat) : cw = n := BitVec.eq_of_toNat_eq hn
  obtain h | h | h | h : cw.toNat = 1 ∨ cw.toNat = 2 ∨ cw.toNat = 3 ∨ cw.toNat = 4 := by omega
  · exact ⟨.sine, by rw [hcw 1 h]; decide, rfl⟩
  · exact ⟨.ramp, by rw [hcw 2 h]; decide, rfl⟩
  · exact ⟨.tri, by rw [hcw 3 h]; decide, rfl⟩
  · exact ⟨.pwm, by rw [hcw 4 h]; decide, rfl⟩

namespace Machine

/-! ## What an event raises (60_exceptions.md R201) -/

/-- A transaction that the decoder refuses raises the decoder's cause, whatever the state. -/
theorem raisedBy_of_illegal {tw : TransactionWord} {c : Cause} (hd : decode tw = .illegal c) (s : State) :
    raisedBy s (.transaction tw) = some c := by
  simp [raisedBy, hd]

/-- An operation raises `Overrun` if it is an oscillator command at `COUNT` = 0, and nothing else. -/
theorem raisedBy_of_instr {tw : TransactionWord} {i : Instr} (hd : decode tw = .instr i) (s : State) :
    raisedBy s (.transaction tw) = if i.isOscillator = true ∧ s.count = 0 then some .overrun else none := by
  simp [raisedBy, hd]

/-- An event that raises a cause is no reset. -/
theorem resets_eq_false_of_raisedBy {s : State} {e : HostEvent} {c : Cause} (h : raisedBy s e = some c) :
    resets e = false := by
  cases e with
  | rst => cases h
  | transaction tw =>
    refine Bool.eq_false_iff.2 fun hreset => ?_
    rw [raisedBy_of_instr (resets_transaction_iff.1 hreset)] at h
    cases h

/-! ## The flags after a step (10_state.md R28; 60_exceptions.md R203, R207) -/

@[simp] theorem State.flag_overrun (s : State) : s.flag .overrun = s.errOverrun := rfl
@[simp] theorem State.flag_illCmd (s : State) : s.flag .illCmd = s.errIllCmd := rfl
@[simp] theorem State.flag_addrErr (s : State) : s.flag .addrErr = s.errAddr := rfl

/-- A reset clears every flag. -/
@[simp] theorem State.blockReset_flag (s : State) (c : Cause) : s.blockReset.flag c = false := by
  cases c <;> rfl

/-- A read is no oscillator command (00_scope.md R12). -/
theorem isOscillator_of_decodeRead {slot : Slot} {i : Instr} (h : decodeRead slot = .instr i) :
    i.isOscillator = false := by
  refine Bool.eq_false_iff.2 fun hosc => ?_
  have hsample := isSampleCommand_of_isOscillator hosc
  rw [isSampleCommand_of_decodeRead h] at hsample
  cases hsample

/-- An operation other than `RESET` keeps each flag, but an oscillator command at `COUNT` = 0 sets `ERR.OVERRUN`. -/
theorem Executes.flag_eq {s t : State} {i : Instr} (h : Executes s i t) (hi : i ≠ .reset) (c : Cause) :
    t.flag c = (s.flag c || (i.isOscillator && s.done && Cause.overrun == c)) := by
  cases h with
  | read slot hslot => simp [isOscillator_of_decodeRead hslot]
  | oscillator hwave => simp [isOscillator_of_waveformValue hwave]
  | reset => exact absurd rfl hi
  | _ => exact (Bool.or_false _).symm

/-- Each flag after a step: cleared by a reset, and otherwise set if it was set before or its cause is raised. -/
theorem step_flag {s t : State} {e : HostEvent} {es : List HostEvent} (hin : s.input = e :: es)
    (h : step s = .next t) (c : Cause) :
    t.flag c = (!resets e && (s.flag c || decide (raisedBy s e = some c))) := by
  cases hreset : resets e with
  | true =>
    cases (step_of_resets hin hreset).symm.trans h
    simp
  | false =>
    cases e with
    | rst => cases hreset
    | transaction tw =>
      cases hd : decode tw with
      | instr i =>
        have hi : i ≠ .reset := by
          rintro rfl
          simp [resets_transaction_iff.2 hd] at hreset
        rw [step_of_instr hin hd] at h
        rw [(executes_of_exec h).flag_eq hi, raisedBy_of_instr hd]
        simp [State.done, beq_eq_decide]
      | illegal c' =>
        cases (step_of_illegal hin hd).symm.trans h
        simp [raisedBy_of_illegal hd, beq_eq_decide]

/-- A transaction that raises a cause sets the flag of that cause and leaves the other two (60_exceptions.md R203). -/
theorem step_flag_of_raisedBy {s t : State} {e : HostEvent} {es : List HostEvent} {c' : Cause}
    (hin : s.input = e :: es) (h : step s = .next t) (hraised : raisedBy s e = some c') (c : Cause) :
    t.flag c = (s.flag c || c' == c) := by
  rw [step_flag hin h, resets_eq_false_of_raisedBy hraised, hraised]
  simp [beq_eq_decide]

/-- A flag that a step newly sets is the one of the cause raised. -/
theorem raisedBy_of_newly_set {s t : State} {e : HostEvent} {es : List HostEvent} {c : Cause}
    (hin : s.input = e :: es) (h : step s = .next t) (hclear : s.flag c = false) (hset : t.flag c = true) :
    raisedBy s e = some c := by
  rw [step_flag hin h, hclear, Bool.false_or, Bool.and_eq_true_iff] at hset
  exact of_decide_eq_true hset.2

end Machine
end Sys2Proof
end

section
/-! PROOFS. The statement about the errors: the order of the checks of one transaction (60_exceptions.md R204). -/

namespace Sys2Proof.Machine

/-- Settles O10: the failing check decides the one cause the transaction raises (the decoder on the slot and on the
command word, in that order, then the operation on the count), and a step sets no flag but that cause's. -/
theorem firstFailingCheckRaises : Obligations.FirstFailingCheckRaises := by
  intro s t rw idx d rest hin h
  have hcmd (hidx : idx.toNat = 5) : idx = 5 := BitVec.eq_of_toNat_eq hidx
  refine ⟨fun hforbidden => ?_, ?_, ?_, fun c c' hc ht hc' ht' => ?_⟩
  · have hflag := step_flag_of_raisedBy hin h (raisedBy_of_illegal (decode_of_forbidden d hforbidden) s)
    exact ⟨by simpa using hflag .addrErr, by simpa using hflag .illCmd, by simpa using hflag .overrun⟩
  · rintro ⟨rfl, hidx, hillegal⟩
    obtain rfl := hcmd hidx
    have hdecode := (decode_write_cmd d).trans (decodeCommand_of_illegal hillegal)
    have hflag := step_flag_of_raisedBy hin h (raisedBy_of_illegal hdecode s)
    exact ⟨by simpa using hflag .illCmd, by simpa using hflag .addrErr, by simpa using hflag .overrun⟩
  · rintro ⟨rfl, hidx, h1, h4, hcount⟩
    obtain rfl := hcmd hidx
    obtain ⟨i, hcommand, hosc⟩ := decodeCommand_of_oscillator_code h1 h4
    have hdecode := (decode_write_cmd d).trans hcommand
    have hraised := (raisedBy_of_instr hdecode s).trans (if_pos ⟨hosc, hcount⟩)
    have hflag := step_flag_of_raisedBy hin h hraised
    exact ⟨by simpa using hflag .overrun, by simpa using hflag .addrErr, by simpa using hflag .illCmd⟩
  · have hraised := raisedBy_of_newly_set hin h hc ht
    exact Option.some_inj.1 (hraised.symm.trans (raisedBy_of_newly_set hin h hc' ht'))

end Sys2Proof.Machine
end

section
/-! SUPPORT. The next state of `WR.FREQ`, and a count that the gate lets through twice (40_register_access.md R121,
41_oscillator.md R146). -/

namespace Sys2Proof.Machine

/-- `WR.FREQ` stores the frequency word and changes nothing else (40_register_access.md R121). -/
theorem exec_wrFreq (f : Word) (s : State) : exec (.wrFreq f) s = .next { s with freq := f } := rfl

/-- A count of 1 or more lets a command through (41_oscillator.md R146). -/
theorem count_ne_zero_of_one_le {c : Word} (h : 1 ≤ c.toNat) : c ≠ 0 := by
  rintro rfl
  exact absurd h (by decide)

/-- A count of 2 or more lets a second command through after the first (41_oscillator.md R146). -/
theorem count_sub_one_ne_zero_of_two_le {c : Word} (h : 2 ≤ c.toNat) : c - 1 ≠ 0 :=
  count_ne_zero_of_one_le (by bv_omega)

end Sys2Proof.Machine
end

section
/-! PROOFS. The statement about the hazards between transactions: a change of the frequency word keeps the phase
(70_reset_and_hazards.md R236). -/

namespace Sys2Proof.Machine

/-- Settles O45: the first command advances the phase by the old frequency word and the second by the new one, and
between them `WR.FREQ` touches neither the phase nor the count. -/
theorem frequencyChangeIsPhaseContinuous : Obligations.FrequencyChangeIsPhaseContinuous := by
  intro s i j f2 hi hj hcount
  have hfirst : s.count ≠ 0 := count_ne_zero_of_one_le (one_le_two.trans hcount)
  have hsecond : s.count - 1 ≠ 0 := count_sub_one_ne_zero_of_two_le hcount
  exact ⟨_, _, _, exec_oscillator_executes hi hfirst, exec_wrFreq f2 _, exec_oscillator_executes hj hsecond,
    rfl, rfl, rfl, List.append_assoc ..⟩

end Sys2Proof.Machine
end

section
/-! SUPPORT. The two directions of the encoding, and the legal transaction words, said once: the encoding of a read and
of a write, and which words the decoder takes (30_encoding.md R95 to R98). -/

namespace Sys2Proof

/-! ## The encoding of a read and of any other operation -/

/-- A read that a slot decodes to is encoded as the read of that slot (30_encoding.md R95). -/
theorem encode_of_decodeRead {slot : Slot} {i : Instr} (h : decodeRead slot = .instr i) :
    encode i = encodeRead slot := by
  cases slot <;> cases h <;> rfl

/-- The encoder writes the ignored data of a read as 0 (log 9), so it masks out nothing of an encoded read. -/
theorem encode_and_registerMask_of_read {i : Instr} (h : rwOf (encode i) = false) :
    encode i &&& 0x1F00000000 = encode i := by
  cases i with
  | rdFreq | rdPhase | rdDuty | rdCount | rdXin | rdSample | rdStatus => decide
  | _ => simp [encode, encodeCommand, encodeWrite] at h

/-! ## The words that the decoder takes (30_encoding.md R97, R98) -/

/-- An access that the slot map forbids: a read of `CMD`, a write of `SAMPLE` or `STATUS`, or any access to a reserved
index (30_encoding.md R98). -/
abbrev ForbiddenAccess (rw : Bool) (idx : SlotIndex) : Prop :=
  (rw = false ∧ idx.toNat = 5) ∨ (rw = true ∧ (idx.toNat = 6 ∨ idx.toNat = 7)) ∨ 8 ≤ idx.toNat

/-- A command word that is not a legal one: a non-zero `zero` field, an unassigned code, or an immediate that the code
does not take (30_encoding.md R98). -/
abbrev IllegalCommandWord (cw : Word) : Prop :=
  cw.toNat / 2 ^ 8 % 2 ^ 8 ≠ 0 ∨ 8 ≤ cw.toNat % 2 ^ 8 ∨ (cw.toNat / 2 ^ 16 ≠ 0 ∧ cw.toNat % 2 ^ 8 ≠ 6)

/-- Every other command word is a command. -/
theorem decodeCommand_of_legal {cw : Word} (h : ¬ IllegalCommandWord cw) : ∃ i, decodeCommand cw = .instr i := by
  rw [IllegalCommandWord, ← toNat_zeroOf, ← toNat_opOf, ← toNat_imm16Of] at h
  push Not at h
  obtain ⟨hz, hcode, himm⟩ := h
  have hzero : zeroOf cw = 0 := BitVec.eq_of_toNat_eq hz
  have hnoImm : ¬ (opOf cw ≠ 6 ∧ imm16Of cw ≠ 0) := by
    rintro ⟨hop, hne⟩
    exact hop (BitVec.eq_of_toNat_eq (himm fun h0 => hne (BitVec.eq_of_toNat_eq h0)))
  rw [decodeCommand, if_neg (not_not.2 hzero), if_neg hnoImm]
  generalize (opOf cw).toNat = code at hcode ⊢
  interval_cases code <;> exact ⟨_, rfl⟩

/-- Every access that is neither forbidden nor an illegal command decodes to an operation. -/
theorem decode_of_legal {rw : Bool} {idx : SlotIndex} {d : Word} (hslot : ¬ ForbiddenAccess rw idx)
    (hcmd : ¬ (rw = true ∧ idx.toNat = 5 ∧ IllegalCommandWord d)) :
    ∃ i, decode (transactionWord rw idx d) = .instr i := by
  cases hindex : Slot.ofIndex idx with
  | none => exact absurd (.inr (.inr (Slot.ofIndex_eq_none_iff.1 hindex))) hslot
  | some slot =>
    obtain rfl := Slot.index_of_ofIndex hindex
    cases rw with
    | false =>
      rw [decode_transactionWord_read]
      cases slot with
      | cmd => exact absurd (.inl ⟨rfl, rfl⟩) hslot
      | _ => exact ⟨_, rfl⟩
    | true =>
      rw [decode_transactionWord_write]
      cases slot with
      | cmd => exact decodeCommand_of_legal fun hd => hcmd ⟨rfl, rfl, hd⟩
      | sample => exact absurd (.inr (.inl ⟨rfl, .inl rfl⟩)) hslot
      | status => exact absurd (.inr (.inl ⟨rfl, .inr rfl⟩)) hslot
      | _ => exact ⟨_, rfl⟩

/-- The write of an illegal command word decodes to `IllCmd` (30_encoding.md R97). -/
theorem decode_of_illegalCommandWord {idx : SlotIndex} {d : Word} (hidx : idx.toNat = 5) (hd : IllegalCommandWord d) :
    decode (transactionWord true idx d) = .illegal .illCmd := by
  obtain rfl : idx = 5 := BitVec.eq_of_toNat_eq hidx
  exact (decode_write_cmd d).trans (decodeCommand_of_illegal hd)

end Sys2Proof
end

section
/-! PROOFS. The statements about the encoding: encoder and decoder invert each other, and the reserved words are the
illegal ones (30_encoding.md R95 to R98). -/

namespace Sys2Proof.Machine

/-- Settles O1: no operand value is ill-formed, and the decoder undoes the encoder. -/
theorem decodeInvertsEncode : Obligations.DecodeInvertsEncode :=
  fun i => ⟨by cases i <;> rfl, decode_encode i⟩

/-- Settles O2: a decodable word is a read of its slot with any data, which the mask clears, or an encoding. -/
theorem encodeInvertsDecode : Obligations.EncodeInvertsDecode := by
  intro tw i h
  change encode i = if rwOf tw then tw else tw &&& 0x1F00000000
  obtain ⟨slot, d, rfl, hread⟩ | rfl := word_of_decode h
  · rw [rwOf_transactionWord, transactionWord_and_registerMask, encode_of_decodeRead hread]
    rfl
  · cases hrw : rwOf (encode i) with
    | true => rfl
    | false => exact (encode_and_registerMask_of_read hrw).symm

/-- Settles O4: an access is forbidden, or the write of an illegal command word, or an operation; the decoder answers
`AddrErr`, `IllCmd` and the operation. -/
theorem illegalWordsAreTheReservedOnes : Obligations.IllegalWordsAreTheReservedOnes := by
  intro rw idx d
  change (_ ↔ ForbiddenAccess rw idx) ∧ (_ ↔ rw = true ∧ idx.toNat = 5 ∧ IllegalCommandWord d) ∧ _
  by_cases hslot : ForbiddenAccess rw idx
  · have hcmd : ¬ (rw = true ∧ idx.toNat = 5 ∧ IllegalCommandWord d) := by
      rintro ⟨rfl, hidx, -⟩
      simp [ForbiddenAccess, hidx] at hslot
    simp [decode_of_forbidden d hslot, hslot, hcmd]
  by_cases hcmd : rw = true ∧ idx.toNat = 5 ∧ IllegalCommandWord d
  · obtain ⟨rfl, hidx, hd⟩ := hcmd
    simp [decode_of_illegalCommandWord hidx hd, hslot, hidx, hd]
  · obtain ⟨i, hi⟩ := decode_of_legal hslot hcmd
    simp [hi, hslot, hcmd]

/-- Settles O6, one word at a time. -/
theorem writtenOutWordsDecode : Obligations.WrittenOutWordsDecode := by
  refine ⟨?_, ?_, ?_, ?_, ?_, ?_, ?_, ?_, ?_, ?_, ?_, ?_⟩ <;> decide

/-- Settles O9: the decoder refuses the word with `IllCmd`, and a refused write is raised. -/
theorem illegalCommandWordRaisesIllCmd : Obligations.IllegalCommandWordRaisesIllCmd := by
  intro s cw rest hin hillegal
  rw [step_of_illegal hin (decode_of_illegalCommandWord rfl hillegal), rwOf_transactionWord, State.reject_write,
    State.dropEvent_eq_of_input hin]
  rfl

end Sys2Proof.Machine
end

section
/-! SUPPORT. What a step does not read and does not write, said once: `exec` from the relation `Executes`, the
configuration, the record of a run, and the flags (10_state.md R28, R30, R34). -/

namespace Sys2Proof.Machine

/-- The relation `Executes` determines the next state: the converse of `executes_of_exec`. -/
theorem exec_of_executes {i : Instr} {s t : State} (h : Executes s i t) : exec i s = .next t := by
  cases h with
  | read slot hslot => exact exec_of_decodeRead hslot s
  | oscillator hwave =>
    obtain ⟨a, k, hwave', hexec⟩ := exec_oscillator (isOscillator_of_waveformValue hwave) s
    cases hwave.symm.trans hwave'
    exact hexec
  | _ => rfl

/-! ## The configuration (10_state.md R34) -/

@[simp] theorem State.oscCommand_qround (s : State) (a : Int) (k : Nat) : (s.oscCommand a k).qround = s.qround := by
  obtain ⟨-, h⟩ | ⟨-, h⟩ := State.oscCommand_cases s a k <;> rw [h]

@[simp] theorem State.reject_qround (s : State) (rw : Bool) (c : Cause) : (s.reject rw c).qround = s.qround := by
  cases rw <;> simp

/-- No operation changes the rounding mode. -/
theorem Executes.qround_eq {s t : State} {i : Instr} (h : Executes s i t) : t.qround = s.qround := by
  cases h <;> simp

/-! ## The record of a run (10_state.md R30, log 2) -/

/-- The state with more recorded before the run: samples before `OUT`, and words before those returned. -/
def State.withEarlier (s : State) (o : List Sample) (r : List Word) : State :=
  { s with out := o ++ s.out, reads := r ++ s.reads }

theorem State.emit_withEarlier (s : State) (v : Sample) (o : List Sample) (r : List Word) :
    (s.emit v).withEarlier o r = (s.withEarlier o r).emit v := by
  simp [State.emit, State.withEarlier]

theorem State.respond_withEarlier (s : State) (w : Word) (o : List Sample) (r : List Word) :
    (s.respond w).withEarlier o r = (s.withEarlier o r).respond w := by
  simp [State.respond, State.withEarlier]

theorem State.raise_withEarlier (s : State) (c : Cause) (o : List Sample) (r : List Word) :
    (s.raise c).withEarlier o r = (s.withEarlier o r).raise c := by
  cases c <;> rfl

theorem State.reject_withEarlier (s : State) (rw : Bool) (c : Cause) (o : List Sample) (r : List Word) :
    (s.reject rw c).withEarlier o r = (s.withEarlier o r).reject rw c := by
  cases rw with
  | true => exact s.raise_withEarlier c o r
  | false => rw [State.reject_read, State.respond_withEarlier, State.raise_withEarlier, State.reject_read]

theorem State.oscCommand_withEarlier (s : State) (a : Int) (k : Nat) (o : List Sample) (r : List Word) :
    (s.oscCommand a k).withEarlier o r = (s.withEarlier o r).oscCommand a k := by
  by_cases hs : s.count = 0
  · rw [State.oscCommand_overrun hs, State.oscCommand_overrun (s := s.withEarlier o r) hs]
    rfl
  · rw [State.oscCommand_executes hs, State.oscCommand_executes (s := s.withEarlier o r) hs]
    simp [State.withEarlier]

/-- An operation does to a state with more recorded before it what it does without. -/
theorem Executes.withEarlier {s t : State} {i : Instr} (h : Executes s i t) (o : List Sample) (r : List Word) :
    Executes (s.withEarlier o r) i (t.withEarlier o r) := by
  cases h with
  | read slot hslot => rw [State.respond_withEarlier]; exact .read slot hslot
  | wrFreq d => exact .wrFreq d
  | wrPhase d => exact .wrPhase d
  | wrDuty d => exact .wrDuty d
  | wrCount d => exact .wrCount d
  | wrXin d => exact .wrXin d
  | nop => exact .nop
  | oscillator hwave => rw [State.oscCommand_withEarlier]; exact .oscillator hwave
  | qx => rw [State.emit_withEarlier]; exact .qx
  | pass m => rw [State.emit_withEarlier]; exact .pass m
  | reset => exact .reset

/-- A step does to a state with more recorded before it what it does without. -/
theorem step_withEarlier {s t : State} (h : step s = .next t) (o : List Sample) (r : List Word) :
    step (s.withEarlier o r) = .next (t.withEarlier o r) := by
  obtain ⟨hin, rfl⟩ | ⟨es, hin, rfl⟩ | ⟨tw, es, i, hin, hd, hexec⟩ | ⟨tw, es, c, hin, hd, rfl⟩ := step_cases h
  · exact step_of_no_input hin
  · exact step_of_resets (s := s.withEarlier o r) hin rfl
  · rw [step_of_instr (s := s.withEarlier o r) hin hd]
    exact exec_of_executes ((executes_of_exec hexec).withEarlier o r)
  · rw [step_of_illegal (s := s.withEarlier o r) hin hd, State.reject_withEarlier]
    rfl

/-! ## The flags and the words read (10_state.md R28) -/

/-- The state with other flags and other words read. -/
def State.withFlags (s : State) (overrun illCmd addr : Bool) (r : List Word) : State :=
  { s with errOverrun := overrun, errIllCmd := illCmd, errAddr := addr, reads := r }

/-- Two states that differ in the flags and in the words read at most. -/
def FlagVariant (s s' : State) : Prop := ∃ a b c r, s' = s.withFlags a b c r

/-- A variant of a state has every field of it but the flags and the words read. -/
theorem FlagVariant.eq {s s' : State} (h : FlagVariant s s') :
    s = { s' with errOverrun := s.errOverrun, errIllCmd := s.errIllCmd, errAddr := s.errAddr, reads := s.reads } := by
  obtain ⟨a, b, c, r, rfl⟩ := h
  rfl

/-- A rejection changes the flags and the words read at most. -/
theorem FlagVariant.reject {s s' : State} (h : FlagVariant s s') (rw : Bool) (c : Cause) :
    FlagVariant (s.reject rw c) (s'.reject rw c) := by
  obtain ⟨a, b, d, r, rfl⟩ := h
  cases rw <;> cases c <;> exact ⟨_, _, _, _, rfl⟩

/-- An oscillator command is gated by `COUNT` and reads no flag. -/
theorem FlagVariant.oscCommand {s s' : State} (h : FlagVariant s s') (v : Int) (k : Nat) :
    FlagVariant (s.oscCommand v k) (s'.oscCommand v k) := by
  obtain ⟨a, b, c, r, rfl⟩ := h
  by_cases hs : s.count = 0
  · rw [State.oscCommand_overrun hs, State.oscCommand_overrun (s := s.withFlags a b c r) hs]
    exact ⟨_, _, _, _, rfl⟩
  · rw [State.oscCommand_executes hs, State.oscCommand_executes (s := s.withFlags a b c r) hs]
    exact ⟨_, _, _, _, rfl⟩

/-- An operation takes variants to variants. -/
theorem Executes.flagVariant {s s' t : State} {i : Instr} (h : Executes s i t) (hs : FlagVariant s s') :
    ∃ t', Executes s' i t' ∧ FlagVariant t t' := by
  have hosc := hs.oscCommand
  obtain ⟨a, b, c, r, rfl⟩ := hs
  cases h with
  | read slot hslot => exact ⟨_, .read slot hslot, _, _, _, _, rfl⟩
  | wrFreq d => exact ⟨_, .wrFreq d, _, _, _, _, rfl⟩
  | wrPhase d => exact ⟨_, .wrPhase d, _, _, _, _, rfl⟩
  | wrDuty d => exact ⟨_, .wrDuty d, _, _, _, _, rfl⟩
  | wrCount d => exact ⟨_, .wrCount d, _, _, _, _, rfl⟩
  | wrXin d => exact ⟨_, .wrXin d, _, _, _, _, rfl⟩
  | nop => exact ⟨_, .nop, _, _, _, _, rfl⟩
  | oscillator hwave => exact ⟨_, .oscillator hwave, hosc _ _⟩
  | qx => exact ⟨_, .qx, _, _, _, _, rfl⟩
  | pass m => exact ⟨_, .pass m, _, _, _, _, rfl⟩
  | reset => exact ⟨_, .reset, _, _, _, _, rfl⟩

/-- A step takes variants to variants: which event it takes and what that decodes to depend on no flag. -/
theorem step_flagVariant {s s' t : State} (hs : FlagVariant s s') (h : step s = .next t) :
    ∃ t', step s' = .next t' ∧ FlagVariant t t' := by
  have hdrop : FlagVariant s.dropEvent s'.dropEvent := by
    obtain ⟨a, b, c, r, rfl⟩ := hs
    exact ⟨a, b, c, r, rfl⟩
  have hinput : s'.input = s.input := by
    obtain ⟨a, b, c, r, rfl⟩ := hs
    rfl
  obtain ⟨hin, rfl⟩ | ⟨es, hin, rfl⟩ | ⟨tw, es, i, hin, hd, hexec⟩ | ⟨tw, es, c, hin, hd, rfl⟩ := step_cases h <;>
    rw [← hinput] at hin
  · exact ⟨s', step_of_no_input hin, hs⟩
  · obtain ⟨t', ht', hvariant⟩ := Executes.reset.flagVariant hdrop
    exact ⟨t', (step_of_resets hin rfl).trans (exec_of_executes ht'), hvariant⟩
  · obtain ⟨t', ht', hvariant⟩ := (executes_of_exec hexec).flagVariant hdrop
    exact ⟨t', (step_of_instr hin hd).trans (exec_of_executes ht'), hvariant⟩
  · exact ⟨_, step_of_illegal hin hd, hdrop.reject _ _⟩

/-- A run takes variants to variants. -/
theorem run_flagVariant (k : Nat) : ∀ {s s' : State}, FlagVariant s s' →
    ∃ t t', Host.Core.run Sys2Proof.core k s = .next t ∧ Host.Core.run Sys2Proof.core k s' = .next t' ∧
      FlagVariant t t' := by
  induction k with
  | zero => exact fun hs => ⟨_, _, rfl, rfl, hs⟩
  | succ k ih =>
    intro s s' hs
    obtain ⟨u, hu⟩ := step_total s
    obtain ⟨u', hu', hvariant⟩ := step_flagVariant hs hu
    rw [run_succ hu, run_succ hu']
    exact ih hvariant

/-! ## `SAMPLE` and `OUT` (10_state.md R36) -/

/-- An emitted sample is the last of `OUT`. -/
theorem SampleTracksOut.of_emitted {n : Nat} {s t : State} {w : Sample} (hs : SampleTracksOut n s)
    (hsample : t.sample = w) (hout : t.out = s.out ++ [w]) : SampleTracksOut n t := by
  have hle : n ≤ s.out.length := hs.elim (fun h => h.1.ge) (fun h => h.1.le)
  exact .inr ⟨by simpa [hout] using Nat.lt_succ_of_le hle, by simp [hout, hsample]⟩

/-- A sample command does not reset the block (00_scope.md R12). -/
theorem resets_eq_false_of_isSampleCommand {tw : TransactionWord} {i : Instr} (hd : decode tw = .instr i)
    (hi : i.isSampleCommand = true) : resets (.transaction tw) = false := by
  refine Bool.eq_false_iff.2 fun hreset => ?_
  cases hd.symm.trans (resets_transaction_iff.1 hreset)
  cases hi

end Sys2Proof.Machine
end

section
/-! PROOFS. The statements about the step and its invariants: what a step runs and takes, the flags, the record, the
configuration, and the invariant of `SAMPLE` and `OUT` (10_state.md R28, R30, R34, R36; 60_exceptions.md R203). -/

namespace Sys2Proof.Machine

/-- Settles O17, by induction over the run: each step takes states that differ in the flags and the words read to such
states. -/
theorem flagsDoNotSteerTheBlock : Obligations.FlagsDoNotSteerTheBlock := by
  intro k s a b c r
  obtain ⟨t, t', ht, ht', hvariant⟩ := run_flagVariant k (s := s) ⟨a, b, c, r, rfl⟩
  exact ⟨t, t', ht, ht', hvariant.eq⟩

/-- Settles O20: a step that resets leaves `SAMPLE` at 0 and moves the mark to the end of `OUT`; one that emits latches
the last of `OUT`; any other leaves both. -/
theorem stepKeepsSampleTracksOut : Obligations.StepKeepsSampleTracksOut := by
  intro n s t hs h
  obtain ⟨hemits, hholds⟩ := emitOncePerExecutedSampleCommand s t h
  by_cases hexec : ∃ tw i, s.input.head? = some (.transaction tw) ∧ decode tw = .instr i ∧ i.isSampleCommand = true ∧
      (i.isOscillator = true → s.count ≠ 0)
  · obtain ⟨w, hsample, hout⟩ := hemits hexec
    obtain ⟨tw, i, hhead, hd, hi, -⟩ := hexec
    simpa [hhead, resets_eq_false_of_isSampleCommand hd hi] using hs.of_emitted hsample hout
  · obtain ⟨hout, hsample⟩ := hholds hexec
    by_cases hreset : ∃ e, s.input.head? = some e ∧ resets e = true
    · obtain ⟨e, hhead, he⟩ := hreset
      obtain ⟨es, hin⟩ := List.head?_eq_some_iff.1 hhead
      cases (step_of_resets hin he).symm.trans h
      simp [hhead, he, SampleTracksOut]
    · have hnone : s.input.head?.any resets = false :=
        Bool.eq_false_iff.2 fun hany => hreset ((Option.any_eq_true ..).1 hany)
      have hkept := hsample.resolve_right hreset
      simpa [hnone, SampleTracksOut, hout, hkept] using hs

/-- Settles O7: the event is taken, and the operation runs on what is left. -/
theorem stepRunsTheDecodedOperation : Obligations.StepRunsTheDecodedOperation := by
  intro s tw rest i hin hd
  rw [step_of_instr hin hd, State.dropEvent_eq_of_input hin]

/-- Settles O11. -/
theorem idleBlockHoldsItsState : Obligations.IdleBlockHoldsItsState := fun _ => step_of_no_input

/-- Settles O13: `Executes` gives every operation a next state. -/
theorem machineNeverStops : Obligations.MachineNeverStops :=
  ⟨fun i s => (exec_executes i s).imp fun _ => And.left, step_total⟩

/-- Settles O14. -/
theorem stepTakesOneEvent : Obligations.StepTakesOneEvent := fun _ _ => step_input

/-- Settles O16, from each flag after a step. -/
theorem flagsAreSetByTheirCauseAndClearedByReset : Obligations.FlagsAreSetByTheirCauseAndClearedByReset :=
  fun _ _ _ _ c hin h => step_flag hin h c

/-- Settles O18: no operation reads the record, and each only adds at its end. -/
theorem recordIsNeverRead : Obligations.RecordIsNeverRead := fun _ _ o r h => step_withEarlier h o r

/-- Settles O19, on everything a step can do. -/
theorem configurationIsConstant : Obligations.ConfigurationIsConstant := by
  intro s t h
  obtain ⟨-, rfl⟩ | ⟨es, -, rfl⟩ | ⟨tw, es, i, -, -, hexec⟩ | ⟨tw, es, c, -, -, rfl⟩ := step_cases h
  · rfl
  · rfl
  · exact (executes_of_exec hexec).qround_eq
  · simp

/-- Settles O21: nothing is emitted yet and `SAMPLE` is 0. -/
theorem sampleTracksOutAtReset : Obligations.SampleTracksOutAtReset := .inl ⟨rfl, rfl⟩

end Sys2Proof.Machine
end

section
/-! SUPPORT. The half-wave symmetry of the sine, the magnitude of a rounded value, and the rounding modes near a
multiple (41_oscillator.md R149, 42_quantizer.md R171, R173). -/

namespace Sys2Proof.Machine

/-! ## The sine half a period on (41_oscillator.md R149) -/

/-- Half a period on, the quadrant is the opposite one and the table index is the same. -/
theorem sinq_add_halfPeriod (p : Word) : sinq (p + 0x80000000) = -sinq p := by
  have hp := p.isLt
  have hadd : (p + 0x80000000).toNat = (p.toNat + 2 ^ 31) % 2 ^ 32 := BitVec.toNat_add ..
  have hindex : (p + 0x80000000).toNat / 2 ^ 22 % 256 = p.toNat / 2 ^ 22 % 256 := by omega
  have hquadrant : (p + 0x80000000).toNat / 2 ^ 30 = (p.toNat / 2 ^ 30 + 2) % 4 := by omega
  have hcases : p.toNat / 2 ^ 30 < 4 := by omega
  rw [sinq_eq, sinq_eq, hindex, hquadrant]
  generalize p.toNat / 2 ^ 30 = q at hcases ⊢
  interval_cases q <;> simp

/-! ## The magnitude of a rounded value (42_quantizer.md R173) -/

/-- No mode moves a value away from zero by more than half a unit. -/
theorem two_mul_abs_rnd_mul_le (mode : QRound) (a : Int) {d : Nat} (hd : 1 ≤ d) :
    2 * (|rnd mode a d| * 2 ^ d) ≤ 2 * |a| + 2 ^ d := by
  have hpos : 0 < 2 ^ d := Nat.two_pow_pos d
  have hcast : ((2 ^ d : Nat) : Int) = 2 ^ d := Nat.cast_pow 2 d
  have hnearest {r : Int} (h : 2 * |a - r * 2 ^ d| ≤ 2 ^ d) : 2 * (|r| * 2 ^ d) ≤ 2 * |a| + 2 ^ d := by
    have habs : |r| * 2 ^ d = |r * 2 ^ d| := by rw [abs_mul, abs_of_pos (show (0 : Int) < 2 ^ d by positivity)]
    have htriangle := abs_sub_abs_le_abs_sub (r * 2 ^ d) a
    rw [abs_sub_comm] at htriangle
    rw [habs]
    linarith
  cases mode with
  | trunc =>
    obtain ⟨hlow, -, -⟩ := rndTrunc_spec a hpos
    rw [hcast] at hlow
    rw [rnd_trunc]
    linarith [show (0 : Int) < 2 ^ d by positivity]
  | nearestAway =>
    have h := (rndNearestAway_spec a hpos (dvd_pow_self 2 (by omega))).1
    rw [hcast] at h
    exact hnearest h
  | nearestEven =>
    have h := (rndNearestEven_spec a hpos).1
    rw [hcast] at h
    exact hnearest h

/-- A value of magnitude at most `m` is rounded to an integer of magnitude at most `m`. -/
theorem abs_rnd_le (mode : QRound) {a m : Int} {d : Nat} (hd : 1 ≤ d) (h : |a| ≤ m * 2 ^ d) : |rnd mode a d| ≤ m := by
  have hpos : (0 : Int) < 2 ^ d := by positivity
  have hround := two_mul_abs_rnd_mul_le mode a hd
  have hlt : |rnd mode a d| * 2 ^ d < (m + 1) * 2 ^ d := by linarith
  exact Int.lt_add_one_iff.1 (lt_of_mul_lt_mul_right hlt hpos.le)

/-- A value in [−1, 1] is scaled to an integer in [−4096, 4096] (42_quantizer.md R173). -/
theorem abs_scaled_le (mode : QRound) {a : Int} {k : Nat} (h : |a| ≤ 2 ^ k) : |scaled mode a k| ≤ 4096 := by
  obtain hk | hk := Nat.lt_or_ge 12 k
  · rw [scaled_rounded mode a hk]
    refine abs_rnd_le mode (by omega) (h.trans_eq ?_)
    rw [show (4096 : Int) = 2 ^ 12 by norm_num, ← pow_add, Nat.add_sub_cancel' hk.le]
  · have hpos : (0 : Int) < 2 ^ (12 - k) := by positivity
    calc |scaled mode a k| = |a| * 2 ^ (12 - k) := by rw [scaled_exact mode a hk, abs_mul, abs_of_pos hpos]
      _ ≤ 2 ^ k * 2 ^ (12 - k) := Int.mul_le_mul_of_nonneg_right h hpos.le
      _ = 4096 := by rw [← pow_add, Nat.add_sub_cancel' hk]; norm_num

/-- The sample of a value whose scaled integer fits in 16 bits is that integer. -/
theorem signed_quantize_of_fits {mode : QRound} {a : Int} {k : Nat} (h : |scaled mode a k| < 32768) :
    signed (quantize mode a k) = scaled mode a k :=
  signed_wrap16_of_fits (abs_lt.1 h).1.le (abs_lt.1 h).2

/-- The sample of a value in [−1, 1] is the scaled integer itself. -/
theorem signed_quantize_of_unit (mode : QRound) {a : Int} {k : Nat} (h : |a| ≤ 2 ^ k) :
    signed (quantize mode a k) = scaled mode a k :=
  signed_quantize_of_fits ((abs_scaled_le mode h).trans_lt (by decide))

/-- The two branches of the triangle (41_oscillator.md R154). -/
theorem triNumerator_cases (p : Word) :
    (p.toNat < 2 ^ 31 ∧ triNumerator p = (p.toNat : Int) - 2 ^ 30) ∨
    (2 ^ 31 ≤ p.toNat ∧ triNumerator p = 3 * 2 ^ 30 - (p.toNat : Int)) :=
  (Nat.lt_or_ge p.toNat (2 ^ 31)).imp (fun h => ⟨h, triNumerator_of_lt h⟩) fun h => ⟨h, triNumerator_of_ge h⟩

/-- A waveform value lies in [−1, 1] (41_oscillator.md R149, R152, R154, R161). -/
theorem abs_le_of_waveformValue {i : Instr} {p d : Word} {a : Int} {k : Nat} (h : waveformValue i p d = some (a, k)) :
    |a| ≤ 2 ^ k := by
  have hp := p.isLt
  cases i with
  | sine => cases h; exact abs_le.2 (sinq_mem_Icc p)
  | ramp => cases h; exact abs_le.2 (by rw [rampNumerator_eq]; omega)
  | tri =>
    cases h
    have htri := triNumerator_cases p
    exact abs_le.2 (by omega)
  | pwm =>
    cases h
    obtain hlt | hle := Nat.lt_or_ge d.toNat p.toNat
    · rw [pwmNumerator_eq_one_iff.2 hlt]; decide
    · rw [pwmNumerator_of_le hle]; decide
  | _ => cases h

/-- Every oscillator command has a waveform value (41_oscillator.md R141). -/
theorem exists_waveformValue {i : Instr} (hi : i.isOscillator = true) (p d : Word) :
    ∃ a k, waveformValue i p d = some (a, k) := by
  cases i with
  | sine | ramp | tri | pwm => exact ⟨_, _, rfl⟩
  | _ => cases hi

/-- The sample of an oscillator command is its scaled value (42_quantizer.md R173). -/
theorem signed_oscSample (mode : QRound) {i : Instr} {p d : Word} {a : Int} {k : Nat}
    (h : waveformValue i p d = some (a, k)) : signed (oscSample mode i p d) = scaled mode a k := by
  rw [oscSample, h]
  exact signed_quantize_of_unit mode (abs_le_of_waveformValue h)

/-! ## `TRUNC` and the nearest modes as quotients (42_quantizer.md R171) -/

/-- From 0 on `TRUNC` is the floored quotient. -/
theorem rndTrunc_of_nonneg {a : Int} (h : 0 ≤ a) (D : Nat) : rndTrunc a D = a / D := by
  obtain ⟨n, rfl⟩ := Int.eq_ofNat_of_zero_le h
  exact rndTrunc_natCast n D

/-- Up to 0 `TRUNC` is the opposite of the floored quotient of the opposite. -/
theorem rndTrunc_of_nonpos {a : Int} (h : a ≤ 0) (D : Nat) : rndTrunc a D = -(-a / D) := by
  rw [← rndTrunc_of_nonneg (Int.neg_nonneg_of_nonpos h), rndTrunc_neg, neg_neg]

/-- A nearest mode rounds a natural number up to an even quotient at most half a unit above it. -/
theorem rnd_nearest_up {mode : QRound} (hmode : mode ≠ .trunc) {n m d : Nat} (hd : 1 ≤ d) (heven : m % 2 = 0)
    (hle : n ≤ m * 2 ^ d) (hnear : 2 * (m * 2 ^ d) ≤ 2 * n + 2 ^ d) : rnd mode n d = m := by
  have hpos : 0 < 2 ^ d := Nat.two_pow_pos d
  have hhalf : 2 ∣ 2 ^ d := dvd_pow_self 2 (by omega)
  cases mode with
  | trunc => exact absurd rfl hmode
  | nearestAway =>
    rw [rnd_nearestAway, rndNearestAway_natCast n hpos]
    exact congrArg Nat.cast (Nat.div_eq_of_lt_le (by omega) (by rw [Nat.succ_mul]; omega))
  | nearestEven =>
    obtain ⟨hclose, htie⟩ := rndNearestEven_spec n hpos
    have hdist : |(n : Int) - m * (2 ^ d : Nat)| = m * (2 ^ d : Nat) - n := by
      rw [abs_sub_comm, abs_of_nonneg (by omega)]
    exact eq_of_nearest_of_even (by omega) hclose (by omega) htie fun _ => by omega

end Sys2Proof.Machine
end

section
/-! PROOFS. The statements about the waveforms and the quantizer's ranges: the symmetry of the sine, values in [−1, 1],
and the samples of `RAMP` and `TRI` (41_oscillator.md R149, R153, R155, 42_quantizer.md R173). -/

namespace Sys2Proof.Machine

/-- Settles O32: the opposite quadrant reads the same table entry with the opposite sign. -/
theorem sineIsHalfWaveAntisymmetric : Obligations.SineIsHalfWaveAntisymmetric :=
  fun p => ⟨sinq_add_halfPeriod p, abs_le.2 (sinq_mem_Icc p)⟩

/-- Settles O33: rounding adds at most half a unit to the magnitude, so a value in [−1, 1] stays within 4096 and an
external value below the bound within 15 bits. -/
theorem unitValuesNeverWrap : Obligations.UnitValuesNeverWrap := by
  refine ⟨fun mode a k h => ⟨abs_scaled_le mode h, signed_quantize_of_unit mode h⟩,
    fun i p d hi => ?_, fun mode i p d hi => ?_, fun mode x h => ?_⟩
  · obtain ⟨a, k, hwave⟩ := exists_waveformValue hi p d
    exact ⟨a, k, hwave, abs_le_of_waveformValue hwave⟩
  · obtain ⟨a, k, hwave⟩ := exists_waveformValue hi p d
    have hrange := abs_le.1 (abs_scaled_le mode (abs_le_of_waveformValue hwave))
    rw [← signed_oscSample mode hwave, signed_sample] at hrange
    split at hrange <;> omega
  · refine signed_quantize_of_fits ?_
    have hround := two_mul_abs_rnd_mul_le mode x (d := 12) (by decide)
    rw [show scaled mode x 24 = rnd mode x 12 from scaled_rounded mode x (by decide)]
    omega

/-- Settles O36, on the two halves of the ramp; near its top the scaled value rounds up to the even 4096. -/
theorem rampSamplesInClosedForm : Obligations.RampSamplesInClosedForm := by
  intro p d
  have hp := p.isLt
  have hsample (mode : QRound) : signed (oscSample mode .ramp p d) = rnd mode (rampNumerator p) 19 :=
    (signed_oscSample mode rfl).trans (scaled_rounded mode _ (by decide))
  have htop (mode : QRound) (hmode : mode ≠ .trunc) (h : 0xFFFC0000 ≤ p.toNat) :
      signed (oscSample mode .ramp p d) = 4096 := by
    have hnum : rampNumerator p = ((p.toNat - 2 ^ 31 : Nat) : Int) := by rw [rampNumerator_eq]; omega
    rw [hsample, hnum]
    exact rnd_nearest_up (m := 4096) hmode (by decide) (by decide) (by omega) (by omega)
  have hhigh (h : 2 ^ 31 ≤ p.toNat) :
      signed (oscSample .trunc .ramp p d) = ((p.toNat / 2 ^ 19 : Nat) : Int) - 4096 := by
    rw [hsample, rnd_trunc, rampNumerator_eq, rndTrunc_of_nonneg (by omega)]
    omega
  have hlow (h : p.toNat < 2 ^ 31) :
      signed (oscSample .trunc .ramp p d) = -(((2 ^ 31 - p.toNat) / 2 ^ 19 : Nat) : Int) := by
    rw [hsample, rnd_trunc, rampNumerator_eq, rndTrunc_of_nonpos (by omega)]
    omega
  refine ⟨hhigh, hlow, ?_, ?_, ?_, fun h => ⟨htop _ (by decide) h, htop _ (by decide) h⟩⟩
  all_goals
    obtain h | h := Nat.lt_or_ge p.toNat (2 ^ 31)
    · rw [hlow h]; omega
    · rw [hhigh h]; omega

/-- Settles O37: `TRUNC` reaches the extremes at the extreme numerators only, and a nearest mode rounds to the even
±4096 within half a unit of them. -/
theorem triangleExtremes : Obligations.TriangleExtremes := by
  intro p d
  have hp := p.isLt
  have hsample (mode : QRound) : signed (oscSample mode .tri p d) = rnd mode (triNumerator p) 18 :=
    (signed_oscSample mode rfl).trans (scaled_rounded mode _ (by decide))
  obtain ⟨hlo, hhi⟩ := abs_le.1 (abs_le_of_waveformValue (i := .tri) (p := p) (d := d) rfl)
  obtain ⟨-, -, -, -, -, -, -, htop, hbottom⟩ := triangleFollowsTheDocument.2 p
  have htri := triNumerator_cases p
  refine ⟨?_, ?_, fun mode hmode => ⟨fun h => ?_, fun h => ?_⟩⟩
  · rw [hsample, rnd_trunc, ← htop]
    obtain ha | ha := le_total 0 (triNumerator p)
    · rw [rndTrunc_of_nonneg ha]; omega
    · rw [rndTrunc_of_nonpos ha]; omega
  · rw [hsample, rnd_trunc, ← hbottom]
    obtain ha | ha := le_total 0 (triNumerator p)
    · rw [rndTrunc_of_nonneg ha]; omega
    · rw [rndTrunc_of_nonpos ha]; omega
  · have hnear : 2 ^ 30 - 2 ^ 17 ≤ triNumerator p := by omega
    obtain ⟨n, hn⟩ := Int.eq_ofNat_of_zero_le (show 0 ≤ triNumerator p by omega)
    rw [hsample, hn]
    exact rnd_nearest_up (m := 4096) hmode (by decide) (by decide) (by omega) (by omega)
  · have hnear : triNumerator p ≤ 2 ^ 17 - 2 ^ 30 := by omega
    obtain ⟨n, hn⟩ := Int.eq_ofNat_of_zero_le (show 0 ≤ -triNumerator p by omega)
    rw [hsample, ← neg_neg (triNumerator p), hn, rnd_neg]
    exact congrArg Neg.neg (rnd_nearest_up (m := 4096) hmode (by decide) (by decide) (by omega) (by omega))

end Sys2Proof.Machine
end

section
/-! SUPPORT. The sine table against the real sine: the entries are compared, in integers, with the powers of a rational
point close to the angle π/512 on the unit circle (41_oscillator.md R148). -/

namespace Sys2Proof.Machine

/-- A point of the disk close to the angle π/512 of the circle: its coordinates are those of the angle, times `2^40` and
rounded down, over `2^40`. -/
noncomputable def rotor : ℂ := ⟨1099490929780 / 2 ^ 40, 6746476518 / 2 ^ 40⟩

/-- The coordinates of `rotor` as integers. -/
theorem rotor_mul_two_pow : rotor * 2 ^ 40 = 1099490929780 + 6746476518 * Complex.I := by
  apply Complex.ext <;> norm_num [rotor]

/-- Whether each number of a list is within 497/1000 of `32768·y/D`, when `(x + y·i)/D` is multiplied by `rotor` from
one number to the next. -/
def nearRotations : List Nat → Int → Int → Nat → Bool
  | [], _, _, _ => true
  | t :: ts, x, y, D =>
    decide (1000 * (t * D - 32768 * y).natAbs ≤ 497 * D) &&
      nearRotations ts (x * 1099490929780 - y * 6746476518) (x * 6746476518 + y * 1099490929780) (D * 2 ^ 40)

/-- Every entry of the table is within 497/1000 of the scaled imaginary part of its power of `rotor`. -/
theorem nearRotations_sintab : nearRotations sintab 1 0 1 = true := by decide +kernel

/-- One multiplication by `rotor` on integers. -/
theorem mul_rotor {x y : Int} {D : Nat} {z : ℂ} (h : (x : ℂ) + y * Complex.I = D * z) :
    ((x * 1099490929780 - y * 6746476518 : Int) : ℂ) + (x * 6746476518 + y * 1099490929780 : Int) * Complex.I =
      (D * 2 ^ 40 : Nat) * (z * rotor) := by
  calc ((x * 1099490929780 - y * 6746476518 : Int) : ℂ) + (x * 6746476518 + y * 1099490929780 : Int) * Complex.I
      = (x + y * Complex.I) * (1099490929780 + 6746476518 * Complex.I) := by
        push_cast
        linear_combination (-y * 6746476518 : ℂ) * Complex.I_mul_I
    _ = (D * 2 ^ 40 : Nat) * (z * rotor) := by
        rw [h, ← rotor_mul_two_pow]
        push_cast
        ring

/-- What the check says of each number of the list. -/
theorem abs_sub_le_of_nearRotations (ts : List Nat) : ∀ {x y : Int} {D : Nat} {z : ℂ}, 0 < D →
    (x : ℂ) + y * Complex.I = D * z → nearRotations ts x y D = true → ∀ {j t : Nat}, ts[j]? = some t →
    |(t : ℝ) - 32768 * (z * rotor ^ j).im| ≤ 497 / 1000 := by
  induction ts with
  | nil => exact fun _ _ _ _ _ h => by cases h
  | cons t ts ih =>
    intro x y D z hD hz hnear j u hu
    obtain ⟨hhead, htail⟩ := (Bool.and_eq_true_iff ..).1 hnear
    cases j with
    | succ j =>
      have hrest := ih (by positivity) (mul_rotor hz) htail (j := j) (t := u) hu
      rwa [mul_assoc, ← pow_succ'] at hrest
    | zero =>
      cases hu
      have hDpos : (0 : ℝ) < D := Nat.cast_pos.2 hD
      have him : (y : ℝ) = D * z.im := by simpa using congrArg Complex.im hz
      have hcheck : 1000 * |(t : ℝ) * D - 32768 * y| ≤ 497 * D := by
        have hcast := Int.ofNat_le.2 (of_decide_eq_true hhead)
        push_cast [Int.natCast_natAbs] at hcast
        exact_mod_cast hcast
      have hfactor : (t : ℝ) * D - 32768 * y = (t - 32768 * z.im) * D := by rw [him]; ring
      rw [hfactor, abs_mul, abs_of_pos hDpos, ← mul_assoc] at hcheck
      have hscaled := le_of_mul_le_mul_right hcheck hDpos
      rw [pow_zero, mul_one]
      linarith

/-- The powers of two points of the disk move apart by at most their distance at each step. -/
theorem norm_pow_sub_pow_le {z w : ℂ} (hz : ‖z‖ ≤ 1) (hw : ‖w‖ ≤ 1) (k : Nat) : ‖z ^ k - w ^ k‖ ≤ k * ‖z - w‖ := by
  induction k with
  | zero => simp
  | succ k ih =>
    have hwk : ‖w ^ k‖ ≤ 1 := by rw [norm_pow]; exact pow_le_one₀ (norm_nonneg w) hw
    calc ‖z ^ (k + 1) - w ^ (k + 1)‖ = ‖(z ^ k - w ^ k) * z + w ^ k * (z - w)‖ := by ring_nf
      _ ≤ ‖z ^ k - w ^ k‖ * ‖z‖ + ‖w ^ k‖ * ‖z - w‖ := by
        rw [← norm_mul, ← norm_mul]
        exact norm_add_le _ _
      _ ≤ k * ‖z - w‖ * 1 + 1 * ‖z - w‖ := by gcongr
      _ = (k + 1 : Nat) * ‖z - w‖ := by push_cast; ring

/-- `rotor` lies in the disk. -/
theorem norm_rotor_le : ‖rotor‖ ≤ 1 := by
  rw [Complex.norm_def, Real.sqrt_le_one, Complex.normSq_apply, rotor]
  norm_num

/-- `rotor` is within `2·10^−10` of the angle π/512, by the first terms of sine and cosine. -/
theorem norm_exp_sub_rotor_le : ‖Complex.exp ((Real.pi / 512 : ℝ) * Complex.I) - rotor‖ ≤ 2 / 10 ^ 10 := by
  have hlo : 0.0061359231515425649188 ≤ Real.pi / 512 := by linarith [Real.pi_gt_d20]
  have hhi : Real.pi / 512 ≤ 0.0061359231515425649190 := by linarith [Real.pi_lt_d20]
  generalize Real.pi / 512 = x at hlo hhi ⊢
  have hx : |x| = x := abs_of_nonneg (by linarith)
  have h2lo : (0.0061359231515425649188 : ℝ) ^ 2 ≤ x ^ 2 := by gcongr
  have h2hi : x ^ 2 ≤ (0.0061359231515425649190 : ℝ) ^ 2 := by gcongr
  have h3lo : (0.0061359231515425649188 : ℝ) ^ 3 ≤ x ^ 3 := by gcongr
  have h3hi : x ^ 3 ≤ (0.0061359231515425649190 : ℝ) ^ 3 := by gcongr
  have h4 : x ^ 4 ≤ (0.0061359231515425649190 : ℝ) ^ 4 := by gcongr
  have h5 : x ^ 5 ≤ (0.0061359231515425649190 : ℝ) ^ 5 := by gcongr
  have hcos := Real.cos_bound (x := x) (by rw [hx]; linarith)
  have hsin := Real.sin_bound (x := x) (by rw [hx]; linarith)
  rw [hx, abs_le] at hcos hsin
  have hre : |(Complex.exp (x * Complex.I) - rotor).re| ≤ 15 / 10 ^ 11 := by
    rw [Complex.sub_re, Complex.exp_ofReal_mul_I_re, rotor, abs_le]
    constructor <;> norm_num at * <;> linarith
  have him : |(Complex.exp (x * Complex.I) - rotor).im| ≤ 1 / 10 ^ 11 := by
    rw [Complex.sub_im, Complex.exp_ofReal_mul_I_im, rotor, abs_le]
    constructor <;> norm_num at * <;> linarith
  calc _ ≤ _ := Complex.norm_le_abs_re_add_abs_im _
    _ ≤ 15 / 10 ^ 11 + 1 / 10 ^ 11 := add_le_add hre him
    _ ≤ 2 / 10 ^ 10 := by norm_num

/-- The powers of `rotor` follow the sine. -/
theorem abs_sin_sub_rotor_pow_le (k : Nat) :
    |Real.sin (Real.pi * k / 512) - (rotor ^ k).im| ≤ k * (2 / 10 ^ 10) := by
  have hpow : Complex.exp ((Real.pi / 512 : ℝ) * Complex.I) ^ k =
      Complex.exp ((Real.pi * k / 512 : ℝ) * Complex.I) := by
    rw [← Complex.exp_nat_mul]
    congr 1
    push_cast
    ring
  calc |Real.sin (Real.pi * k / 512) - (rotor ^ k).im|
      = |(Complex.exp ((Real.pi / 512 : ℝ) * Complex.I) ^ k - rotor ^ k).im| := by
        rw [hpow, Complex.sub_im, Complex.exp_ofReal_mul_I_im]
    _ ≤ ‖Complex.exp ((Real.pi / 512 : ℝ) * Complex.I) ^ k - rotor ^ k‖ := Complex.abs_im_le_norm _
    _ ≤ k * ‖Complex.exp ((Real.pi / 512 : ℝ) * Complex.I) - rotor‖ :=
        norm_pow_sub_pow_le (Complex.norm_exp_ofReal_mul_I _).le norm_rotor_le k
    _ ≤ k * (2 / 10 ^ 10) := by gcongr; exact norm_exp_sub_rotor_le

end Sys2Proof.Machine
end

section
/-! PROOFS. The statements about the sine table (41_oscillator.md R148). -/

namespace Sys2Proof.Machine

/-- Settles O30. -/
theorem sineTableChecksums : Obligations.SineTableChecksums := by
  refine ⟨?_, ?_, ?_, ?_, ?_, ?_, ?_, ?_, ?_⟩ <;> decide +kernel

/-- Settles O31: an entry is within 0.497 of the scaled power of `rotor`, which is within 512·10^−10 of the sine. -/
theorem sineTableIsTheRoundedSine : Obligations.SineTableIsTheRoundedSine := by
  intro k hk
  have hlen : k < sintab.length := by rw [sineTableChecksums.1]; omega
  have hentry : sintab[k]? = some (sintab.getD k 0) := by
    rw [List.getElem?_eq_getElem hlen, List.getD_eq_getElem _ _ hlen]
  have hnear := abs_sub_le_of_nearRotations sintab (z := 1) one_pos (by simp) nearRotations_sintab hentry
  have hsin := abs_sin_sub_rotor_pow_le k
  have hk' : (k : ℝ) ≤ 256 := by exact_mod_cast hk
  rw [one_mul] at hnear
  rw [abs_le] at hnear hsin
  rw [abs_lt]
  constructor <;> linarith

end Sys2Proof.Machine
end

section
/-! SUPPORT. A run of oscillator commands, said once: its step, its samples, and its phase as an angle
(41_oscillator.md R142, R143). -/

namespace Sys2Proof.Machine

/-! ## One command -/

/-- The step of an oscillator command at `COUNT` > 0 (41_oscillator.md R142). -/
theorem step_of_oscillator {s : State} {i : Instr} {es : List HostEvent} (hi : i.isOscillator = true)
    (hs : s.count ≠ 0) (hin : s.input = .transaction (encode i) :: es) :
    step s = .next { s with
      sample := oscSample s.qround i s.phase s.duty
      out := s.out ++ [oscSample s.qround i s.phase s.duty]
      phase := s.phase + s.freq
      count := s.count - 1
      input := es } := by
  rw [step_of_instr hin (decode_encode i), State.dropEvent_eq_of_input hin]
  exact exec_oscillator_executes (s := { s with input := es }) hi hs

/-- The next state of an oscillator command whose waveform value has `d` fraction bits more than a sample
(42_quantizer.md R170). -/
theorem exec_oscillator_of_waveformValue {i : Instr} {s : State} {a : Int} {d : Nat}
    (hwave : waveformValue i s.phase s.duty = some (a, 12 + d)) (hd : 0 < d) (hs : s.count ≠ 0) :
    exec i s = .next { s with
      sample := BitVec.ofInt 16 (rnd s.qround a d)
      out := s.out ++ [BitVec.ofInt 16 (rnd s.qround a d)]
      phase := s.phase + s.freq
      count := s.count - 1 } := by
  have hsample : oscSample s.qround i s.phase s.duty = BitVec.ofInt 16 (rnd s.qround a d) := by
    rw [oscSample, hwave]
    simp only [quantize]
    rw [scaled_rounded s.qround a (Nat.lt_add_of_pos_right hd), Nat.add_sub_cancel_left, wrap16]
  rw [exec_oscillator_executes (isOscillator_of_waveformValue hwave) hs, hsample]

/-- The sample of `PWM`, which no mode rounds (41_oscillator.md R162). -/
theorem oscSample_pwm (mode : QRound) (p d : Word) : oscSample mode .pwm p d = if d < p then 0x1000 else 0xF000 := by
  have hsample : oscSample mode .pwm p d = wrap16 (pwmNumerator p d * 2 ^ 12) :=
    congrArg wrap16 (scaled_exact mode _ (by decide))
  rw [hsample]
  obtain hlt | hle := Nat.lt_or_ge d.toNat p.toNat
  · rw [pwmNumerator_eq_one_iff.2 hlt, if_pos (BitVec.lt_def.2 hlt)]
    decide
  · rw [pwmNumerator_of_le hle, if_neg (BitVec.not_lt.2 (BitVec.le_def.2 hle))]
    decide

/-! ## Reads (20_memory.md R54) -/

/-- A register read is the read of a slot (30_encoding.md R91). -/
theorem exists_decodeRead_of_isRead {i : Instr} (h : i.isRead = true) : ∃ slot, decodeRead slot = .instr i := by
  cases i with
  | rdFreq => exact ⟨.freq, rfl⟩
  | rdPhase => exact ⟨.phase, rfl⟩
  | rdDuty => exact ⟨.duty, rfl⟩
  | rdCount => exact ⟨.count, rfl⟩
  | rdXin => exact ⟨.xin, rfl⟩
  | rdSample => exact ⟨.sample, rfl⟩
  | rdStatus => exact ⟨.status, rfl⟩
  | _ => cases h

/-- No slot shows the words read before. -/
@[simp] theorem State.respond_slotValue (s : State) (w : Word) (slot : Slot) :
    (s.respond w).slotValue slot = s.slotValue slot := by
  cases slot <;> rfl

/-- A read twice returns the same word twice. -/
theorem exec_read_twice {slot : Slot} {i : Instr} {s t : State} (h : decodeRead slot = .instr i)
    (hexec : exec i s = .next t) :
    exec i t = .next { s with reads := s.reads ++ [s.slotValue slot, s.slotValue slot] } := by
  cases (exec_of_decodeRead h s).symm.trans hexec
  refine (exec_of_decodeRead h (s.respond (s.slotValue slot))).trans ?_
  rw [State.respond_slotValue]
  simp [State.respond]

/-! ## A run of commands -/

/-- The samples that a list of oscillator commands emits from a phase on (41_oscillator.md R143). -/
def oscSamples (mode : QRound) (freq duty : Word) : Word → List Instr → List Sample
  | _, [] => []
  | p, c :: cs => oscSample mode c p duty :: oscSamples mode freq duty (p + freq) cs

/-- One sample period on, and then `n` of them, is `n + 1` of them. -/
theorem phase_succ (p f : Word) (n : Nat) :
    p + f + BitVec.ofNat 32 n * f = p + BitVec.ofNat 32 (n + 1) * f := by
  have hsucc : BitVec.ofNat 32 (n + 1) = BitVec.ofNat 32 n + 1 := BitVec.ofNat_add ..
  rw [hsucc]
  ring

/-- The n-th command emits its waveform's sample at the phase `p + n·f`. -/
theorem oscSamples_eq_mapIdx (mode : QRound) (f d p : Word) (cs : List Instr) :
    oscSamples mode f d p cs = cs.mapIdx fun n c => oscSample mode c (p + BitVec.ofNat 32 n * f) d := by
  induction cs generalizing p with
  | nil => rfl
  | cons c cs ih =>
    rw [oscSamples, ih, List.mapIdx_cons]
    simp [phase_succ]

/-- The state after a run of oscillator commands that `COUNT` lets through. -/
def State.afterCommands (s : State) (cs : List Instr) (rest : List HostEvent) : State :=
  { s with
    sample := (oscSamples s.qround s.freq s.duty s.phase cs).getLast?.getD s.sample
    out := s.out ++ oscSamples s.qround s.freq s.duty s.phase cs
    phase := s.phase + BitVec.ofNat 32 cs.length * s.freq
    count := s.count - BitVec.ofNat 32 cs.length
    input := rest }

/-- A run of oscillator commands that `COUNT` lets through, by induction over the commands. -/
theorem run_commands {cs : List Instr} {rest : List HostEvent} : ∀ {s : State}, (∀ c ∈ cs, c.isOscillator = true) →
    cs.length ≤ s.count.toNat → s.input = cs.map (fun c => .transaction (encode c)) ++ rest →
    Host.Core.run Sys2Proof.core cs.length s = .next (s.afterCommands cs rest) := by
  induction cs with
  | nil =>
    intro s _ _ hin
    obtain rfl : s.input = rest := hin
    simp [State.afterCommands, oscSamples]
  | cons c cs ih =>
    intro s hosc hlen hin
    rw [List.length_cons] at hlen
    obtain ⟨hc, hcs⟩ := List.forall_mem_cons.1 hosc
    have hstep := step_of_oscillator hc (count_ne_zero_of_one_le (by omega)) hin
    have hcount : cs.length ≤ (s.count - 1).toNat := by bv_omega
    have hphase := phase_succ s.phase s.freq cs.length
    have hleft : s.count - 1 - BitVec.ofNat 32 cs.length = s.count - BitVec.ofNat 32 (cs.length + 1) := by
      bv_omega
    rw [List.length_cons, run_succ hstep, ih hcs hcount rfl]
    simp only [State.afterCommands, List.length_cons, hphase, hleft]
    simp [oscSamples, List.getLast?_cons]

/-- The count left after a run of commands that it lets through. -/
theorem toNat_count_sub {c : Word} {n : Nat} (h : n ≤ c.toNat) : (c - BitVec.ofNat 32 n).toNat = c.toNat - n := by
  have hc := c.isLt
  bv_omega

/-! ## The phase as an angle -/

/-- After `n` sample periods of an exact frequency word `F` the phase word is the fraction of `n·F / 2^32`
(41_oscillator.md R143). -/
theorem toNat_phase_div_eq_fract (F : Int) (n : Nat) :
    ((BitVec.ofNat 32 n * wrap32 F).toNat : ℝ) / 2 ^ 32 = Int.fract ((F : ℝ) * n / 2 ^ 32) := by
  have hword : BitVec.ofNat 32 n * wrap32 F = BitVec.ofInt 32 (F * n) := by
    rw [wrap32, BitVec.ofInt_mul, BitVec.ofInt_natCast, mul_comm]
  have hnat : ((BitVec.ofNat 32 n * wrap32 F).toNat : Int) = F * n % (2 ^ 32 : Nat) := by
    rw [hword, BitVec.toNat_ofInt, Int.toNat_of_nonneg (Int.emod_nonneg _ (by decide))]
  have hfract := Int.fract_div_intCast_eq_div_intCast_mod (k := ℝ) (m := F * n) (n := 2 ^ 32)
  rw [← hnat] at hfract
  simp only [Int.cast_mul, Int.cast_natCast, Nat.cast_pow, Nat.cast_ofNat] at hfract
  exact hfract.symm

end Sys2Proof.Machine
end

section
/-! PROOFS. The statements about the oscillator commands and the register accesses that repeat: the four commands, and a
run of them (41_oscillator.md R142, R143, R151, R153, R155, R162; 20_memory.md R54). -/

namespace Sys2Proof.Machine

/-- Settles O23: the sine has 15 fraction bits, 3 of which are rounded away. -/
theorem sineEmitsAdvancesAndCounts : Obligations.SineEmitsAdvancesAndCounts :=
  fun _ hs => exec_oscillator_of_waveformValue (i := .sine) (d := 3) rfl (by decide) hs

/-- Settles O24: the ramp has 31 fraction bits, 19 of which are rounded away. -/
theorem rampEmitsAdvancesAndCounts : Obligations.RampEmitsAdvancesAndCounts := by
  intro s hs
  rw [← rampNumerator_eq]
  exact exec_oscillator_of_waveformValue (i := .ramp) (d := 19) rfl (by decide) hs

/-- Settles O25: the triangle has 30 fraction bits, 18 of which are rounded away, on both halves. -/
theorem triEmitsAdvancesAndCounts : Obligations.TriEmitsAdvancesAndCounts := by
  refine fun s hs => ⟨fun hlt => ?_, fun hge => ?_⟩
  · rw [← triNumerator_of_lt hlt]
    exact exec_oscillator_of_waveformValue (i := .tri) (d := 18) rfl (by decide) hs
  · rw [← triNumerator_of_ge hge]
    exact exec_oscillator_of_waveformValue (i := .tri) (d := 18) rfl (by decide) hs

/-- Settles O26: ±1 is scaled to ±4096 in every mode. -/
theorem pwmEmitsAdvancesAndCounts : Obligations.PwmEmitsAdvancesAndCounts := by
  intro s hs
  rw [← oscSample_pwm s.qround]
  exact exec_oscillator_executes rfl hs

/-- Settles O42, from the state after a run of commands. -/
theorem oscillatorRunFollowsTheAccumulator : Obligations.OscillatorRunFollowsTheAccumulator := by
  intro s cs rest hosc hlen hin
  exact ⟨_, _, run_commands hosc hlen hin, oscSamples_eq_mapIdx .., rfl, toNat_count_sub hlen, rfl, rfl, rfl, rfl, rfl,
    rfl, rfl, rfl, rfl, rfl, rfl⟩

/-- Settles O43: from `PHASE` = 0 the phase word after k commands is k times the frequency word. -/
theorem exactFrequencyWordGivesTheDocumentsPhase : Obligations.ExactFrequencyWordGivesTheDocumentsPhase := by
  intro f fs F s cs rest hfs hF hphase hfreq hosc hlen hin
  have hangle (n : Nat) : 2 * Real.pi * (s.phase + BitVec.ofNat 32 n * s.freq).toNat / 2 ^ 32 =
      2 * Real.pi * Int.fract (f * (n / fs)) := by
    have hturns : f * (n / fs) = (F : ℝ) * n / 2 ^ 32 := by
      rw [hF]
      field_simp
    have hword : s.phase + BitVec.ofNat 32 n * s.freq = BitVec.ofNat 32 n * wrap32 F := by
      rw [hphase, hfreq]
      exact BitVec.zero_add _
    rw [hturns, hword, ← toNat_phase_div_eq_fract, mul_div_assoc]
  refine ⟨_, run_commands hosc hlen hin, hangle cs.length, fun k hk => ⟨_, hangle k, ?_⟩⟩
  change (s.out ++ oscSamples s.qround s.freq s.duty s.phase cs)[s.out.length + k]? = _
  rw [oscSamples_eq_mapIdx, List.getElem?_append_right (Nat.le_add_right ..), Nat.add_sub_cancel_left]
  simp [hk]

/-- Settles O52: a read records a word that depends on no record, and a register write is a setter. -/
theorem readsAndRegisterWritesRepeat : Obligations.ReadsAndRegisterWritesRepeat := by
  refine ⟨fun i s hi => ?_, ?_⟩
  · obtain ⟨slot, hslot⟩ := exists_decodeRead_of_isRead hi
    exact ⟨_, exec_of_decodeRead hslot s, fun t => exec_read_twice hslot⟩
  · rintro i d s t (rfl | rfl | rfl | rfl | rfl) h <;> cases h <;> rfl

end Sys2Proof.Machine
end

section
/-! SUPPORT. The host's side, said once: the assembler lines, the bytes of the bus, and the rounds of a loop that
polls the block and commands it (30_encoding.md R101, R102; 20_memory.md R52, R53, R76). -/

namespace Sys2Proof.Machine

/-! ## The assembler lines (30_encoding.md R101) -/

/-- A number from −2^31 to 2^32 − 1 stands for a 32-bit word (log 16). -/
theorem fitsWord_32 {v : Int} (hlo : -2 ^ 31 ≤ v) (hhi : v < 2 ^ 32) : fitsWord 32 v = true := by
  rw [fitsWord, Bool.and_eq_true_iff, decide_eq_true_iff, decide_eq_true_iff]
  exact ⟨hlo, hhi⟩

/-- A write of a register with a number that fits is the write of the number's word. -/
theorem assemble_wr {reg : Slot} {v : Int} (hreg : reg.storable = true) (hv : fitsWord 32 v = true) :
    assemble (.wr reg v) = some (encodeWrite reg (wrap32 v)) := by
  simp [assemble, AsmLine.wellFormed, hreg, hv]

theorem assembleAll_cons {l : AsmLine} {ls : List AsmLine} {tw : TransactionWord} {tws : List TransactionWord}
    (hl : assemble l = some tw) (hls : assembleAll ls = some tws) : assembleAll (l :: ls) = some (tw :: tws) := by
  simp [assembleAll, hl, hls]

/-! ## The bus (20_memory.md R52, R53) -/

/-- The four bytes of a word, low byte first, make up the word. -/
theorem wordOfBytes_bytesOfWord (w : Word) : wordOfBytes (bytesOfWord w) = w := by
  apply BitVec.eq_of_getLsbD_eq
  intro j hj
  simp only [wordOfBytes, bytesOfWord, BitVec.getLsbD_or, BitVec.getLsbD_shiftLeft, BitVec.getLsbD_setWidth,
    BitVec.getLsbD_extractLsb']
  interval_cases j <;> simp

/-- What the adapter accepts (20_memory.md R53). -/
theorem accepted_iff {base : Nat} {a : BusAccess} :
    a.accepted base = true ↔
      a.width = 4 ∧ base ≤ a.address ∧ a.address < base + 64 ∧ a.address % 4 = 0 ∧ (a.address - base) % 4 = 0 ∧
        (a.write = true → a.data.length = 4) := by
  cases hwrite : a.write <;> simp [BusAccess.accepted, hwrite, and_assoc]

/-- An access at the word of a slot is accepted, a write with four bytes. -/
theorem accepted_of_slot {base : Nat} (hbase : base % 4 = 0) (idx : SlotIndex) {write : Bool} {data : List (BitVec 8)}
    (hdata : write = true → data.length = 4) :
    BusAccess.accepted base ⟨write, base + 4 * idx.toNat, 4, data⟩ = true := by
  have hidx := idx.isLt
  exact accepted_iff.2 ⟨rfl, by simp only; omega, by simp only; omega, by simp only; omega, by simp only; omega, hdata⟩

/-- An accepted access at the word of a slot is the transaction on that slot. -/
theorem busTransaction_of_slot {base : Nat} (hbase : base % 4 = 0) (idx : SlotIndex) {write : Bool}
    {data : List (BitVec 8)} (hdata : write = true → data.length = 4) :
    busTransaction base ⟨write, base + 4 * idx.toNat, 4, data⟩ =
      some (transactionWord write idx (if write then wordOfBytes data else 0)) := by
  have hindex : BitVec.ofNat 4 ((base + 4 * idx.toNat - base) / 4) = idx := by
    rw [Nat.add_sub_cancel_left, Nat.mul_div_cancel_left _ (by decide), BitVec.ofNat_toNat, BitVec.setWidth_eq]
  rw [busTransaction, if_pos (accepted_of_slot hbase idx hdata), hindex]

/-! ## The rounds of a loop that polls and commands (30_encoding.md R102, 20_memory.md R76) -/

/-- Issuing the word of an operation runs the operation, and leaves what the host has yet to present. -/
theorem issue_encode (i : Instr) (s : State) : issue (encode i) s = nextState (exec i s) := by
  rw [issue, step_of_instr (s := s.present (.transaction (encode i))) rfl (decode_encode i)]
  rfl

/-- The state after one round: a poll, and an oscillator command that `COUNT` lets through. -/
def State.afterRound (s : State) (c : Instr) : State :=
  { s.respond s.statusWord with
    sample := oscSample s.qround c s.phase s.duty
    out := s.out ++ [oscSample s.qround c s.phase s.duty]
    phase := s.phase + s.freq
    count := s.count - 1 }

/-- The command of a round. -/
theorem issue_oscillator {c : Instr} {s : State} (hc : c.isOscillator = true) (hs : s.count ≠ 0) :
    issue (encode c) (s.respond s.statusWord) = some (s.afterRound c) := by
  rw [issue_encode, exec_oscillator_executes (s := s.respond s.statusWord) hc hs]
  rfl

/-- `Drains c s vs u`: polling and commanding `c` from `s` until `DONE` emits the samples `vs` and ends in `u`. -/
inductive Drains (c : Instr) : State → List Sample → State → Prop where
  /-- The poll of a finished source ends the loop. -/
  | done {s : State} (hs : s.count = 0) : Drains c s [] (s.respond s.statusWord)
  /-- The poll of an unfinished one is followed by the command, and the loop goes on. -/
  | round {s u : State} {vs : List Sample} (hs : s.count ≠ 0) (hrest : Drains c (s.afterRound c) vs u) :
      Drains c s (oscSample s.qround c s.phase s.duty :: vs) u

/-- From every state the block is drained, for each round counts down. -/
theorem exists_drains (c : Instr) (s : State) : ∃ vs u, Drains c s vs u := by
  induction hn : s.count.toNat generalizing s with
  | zero => exact ⟨_, _, .done (BitVec.eq_of_toNat_eq hn)⟩
  | succ n ih =>
    obtain ⟨vs, u, hrest⟩ := ih (s.afterRound c) (by simp only [State.afterRound]; bv_omega)
    exact ⟨_, u, .round (count_ne_zero_of_one_le (by omega)) hrest⟩

namespace Drains

variable {c : Instr} {s u : State} {vs : List Sample}

/-- A drained block has nothing left to count. -/
theorem count_eq (h : Drains c s vs u) : u.count = 0 := by
  induction h with
  | done hs => exact hs
  | round _ _ ih => exact ih

/-- A drained block has emitted as many samples as `COUNT` said. -/
theorem length_eq (h : Drains c s vs u) : vs.length = s.count.toNat := by
  induction h with
  | done hs => rw [hs]; rfl
  | @round s u vs hs _ ih =>
    have hone : s.count.toNat ≠ 0 := fun h0 => hs (BitVec.eq_of_toNat_eq h0)
    simp only [State.afterRound] at ih
    rw [List.length_cons, ih]
    bv_omega

/-- The samples of the rounds stand at the end of `OUT`. -/
theorem out_eq (h : Drains c s vs u) : u.out = s.out ++ vs := by
  induction h with
  | done hs => simp
  | round _ _ ih => simp [ih, State.afterRound]

/-- Every poll returns one word. -/
theorem length_reads (h : Drains c s vs u) : u.reads.length = s.reads.length + vs.length + 1 := by
  induction h with
  | done hs => simp
  | round _ _ ih =>
    rw [ih, List.length_cons]
    simp only [State.afterRound, State.respond_reads, List.length_append, List.length_singleton]
    omega

/-- No round touches a flag. -/
theorem flag_eq (h : Drains c s vs u) (cause : Cause) : u.flag cause = s.flag cause := by
  induction h with
  | done hs => rfl
  | round _ _ ih => exact ih

/-- The polling loop is left at the poll after the last command (30_encoding.md R102). -/
theorem untilDoneHost_eq (hc : c.isOscillator = true) (h : Drains c s vs u) :
    untilDoneHost (issue (encode c)) (vs.length + 1) s = some u := by
  induction h with
  | done hs => exact untilDoneHost_done (beq_iff_eq.2 hs) _ _
  | round hs _ ih => rwa [untilDoneHost_next (beq_eq_false_iff_ne.2 hs) (issue_oscillator hc hs)]

end Drains

end Sys2Proof.Machine
end

section
/-! PROOFS. The statements about the host's side: the pseudo-instructions, the bus adapter and the polling loop
(30_encoding.md R102; 20_memory.md R52, R53). -/

namespace Sys2Proof.Machine

/-- Settles O53: the loop drains the block. -/
theorem pollingLoopDrainsTheCount : Obligations.PollingLoopDrainsTheCount := by
  intro s c hc
  obtain ⟨vs, u, hdrains⟩ := exists_drains c s
  rw [← hdrains.length_eq]
  exact ⟨u, hdrains.untilDoneHost_eq hc, hdrains.count_eq, by simp [hdrains.out_eq], hdrains.length_reads,
    hdrains.flag_eq .overrun, hdrains.flag_eq .illCmd, hdrains.flag_eq .addrErr⟩

/-- Settles O54: each line of an expansion is assembled to its word. -/
theorem pseudoInstructionsExpand : Obligations.PseudoInstructionsExpand := by
  refine ⟨by decide, fun f n hf hf' hn hn' => ?_, fun x hx hx' => ?_⟩
  · exact assembleAll_cons (assemble_wr rfl (fitsWord_32 hf hf'))
      (assembleAll_cons (assemble_wr rfl (by decide))
        (assembleAll_cons (assemble_wr rfl (fitsWord_32 hn hn')) rfl))
  · exact assembleAll_cons (assemble_wr rfl (fitsWord_32 hx hx')) (by decide)

/-- Settles O55: an access at the word of a slot is accepted, and any of the four faults breaks a condition. -/
theorem busAdapterMapsAlignedWords : Obligations.BusAdapterMapsAlignedWords := by
  refine ⟨fun base idx w hbase => ⟨?_, ?_⟩, fun base a hfault => if_neg fun haccepted => ?_⟩
  · rw [busTransaction_of_slot hbase idx fun _ => rfl, if_pos rfl, wordOfBytes_bytesOfWord]
  · exact busTransaction_of_slot hbase idx nofun
  · obtain ⟨hwidth, hlow, hhigh, halign, -⟩ := accepted_iff.1 haccepted
    omega

end Sys2Proof.Machine
end

section
/-! SUPPORT. The Track, said once: its length and its samples after growth and after a write, and what a list of writes
leaves (20_memory.md R71, R74 to R76). -/

namespace Sys2Proof.Machine

/-! ## Growth (20_memory.md R71, R74) -/

/-- Growth is to the blocks that the index needs, and never shrinks. -/
theorem Track.length_grow (t : Track) (n : Nat) :
    (t.grow n).samples.length = max t.samples.length ((n / 1024 + 1) * 1024) := by
  simp only [Track.grow, blocksFor, Config.blockSize, List.length_append, List.length_replicate]
  omega

/-- A Track of whole blocks has a length that is a multiple of the block size. -/
theorem Track.wf_iff {t : Track} : t.wf = true ↔ t.samples.length % 1024 = 0 := beq_iff_eq

/-- Growth makes the index one of a stored sample. -/
theorem Track.lt_length_grow (t : Track) (n : Nat) : n < (t.grow n).samples.length := by
  rw [Track.length_grow]
  omega

/-- The new samples are 0, which is what an index past the end reads. -/
@[simp] theorem Track.get_grow (t : Track) (n m : Nat) : (t.grow n).get m = t.get m := by
  simp only [Track.get, Track.grow, List.getD_eq_getElem?_getD, List.getElem?_append]
  split
  · rfl
  · rw [List.getElem?_eq_none (by omega : t.samples.length ≤ m), List.getElem?_replicate]
    split <;> rfl

/-- A new Track reads 0 everywhere. -/
@[simp] theorem Track.get_empty (m : Nat) : Track.empty.get m = 0 := rfl

/-- A read answers the stored sample as a signed integer (20_memory.md R75). -/
theorem Track.read_fst (t : Track) (n : Nat) : (t.read n).1 = signed (t.get n) := congrArg signed (t.get_grow n n)

/-! ## Writes (20_memory.md R75) -/

/-- A write is as long as the growth it makes. -/
@[simp] theorem Track.length_write (t : Track) (n : Nat) (delta : Int) :
    (t.write n delta).samples.length = (t.grow n).samples.length := List.length_set

/-- A write adds at its index and leaves every other one. -/
theorem Track.get_write (t : Track) (n m : Nat) (delta : Int) :
    (t.write n delta).get m = if m = n then wrap16 (signed (t.get n) + delta) else t.get m := by
  have hlt := t.lt_length_grow n
  rw [← t.get_grow n m, ← t.get_grow n n]
  simp only [Track.write, Track.get, List.getD_eq_getElem?_getD]
  by_cases hm : m = n
  · rw [hm, List.getElem?_set_self hlt, if_pos rfl]
    rfl
  · rw [List.getElem?_set_ne (Ne.symm hm), if_neg hm]

/-- A write at its own index. -/
theorem Track.get_write_self (t : Track) (n : Nat) (delta : Int) :
    (t.write n delta).get n = wrap16 (signed (t.get n) + delta) := by
  rw [Track.get_write, if_pos rfl]

/-- A write at another index. -/
theorem Track.get_write_of_ne (t : Track) {n m : Nat} (hm : m ≠ n) (delta : Int) :
    (t.write n delta).get m = t.get m := by
  rw [Track.get_write, if_neg hm]

/-- A write depends on what it adds modulo `2^16` only. -/
theorem Track.write_signed_wrap16 (t : Track) (n : Nat) (z : Int) : t.write n (signed (wrap16 z)) = t.write n z := by
  have hword (x : Int) : wrap16 (x + signed (wrap16 z)) = wrap16 (x + z) := by
    simp only [wrap16, signed, BitVec.ofInt_add, BitVec.ofInt_toInt]
  rw [Track.write, hword, Track.write]

/-- The word of a sample's value is the sample. -/
@[simp] theorem wrap16_signed (v : Sample) : wrap16 (signed v) = v := BitVec.ofInt_toInt

/-! ## The length in blocks -/

/-- A Track that is as long as a growth has the blocks of that growth, all whole. -/
theorem Track.blocks_of_length_eq_grow {t u : Track} {n : Nat} (ht : t.wf = true)
    (hu : u.samples.length = (t.grow n).samples.length) :
    u.wf = true ∧ u.blockCount = max t.blockCount (n / 1024 + 1) := by
  rw [Track.wf_iff] at ht ⊢
  rw [Track.length_grow] at hu
  simp only [Track.blockCount, Config.blockSize]
  omega

/-! ## Consecutive writes (20_memory.md R76) -/

/-- Writes from an index on leave every index before it. -/
theorem Track.get_writeFrom_of_lt (vs : List Sample) : ∀ (t : Track) {n m : Nat}, m < n →
    (t.writeFrom n vs).get m = t.get m := by
  induction vs with
  | nil => exact fun t _ _ _ => rfl
  | cons v vs ih =>
    intro t n m hm
    rw [Track.writeFrom, ih _ (Nat.lt_succ_of_lt hm), Track.get_write_of_ne t hm.ne]

/-- Writes of a list leave every index past its last one. -/
theorem Track.get_writeFrom_of_ge (vs : List Sample) : ∀ (t : Track) {n m : Nat}, n + vs.length ≤ m →
    (t.writeFrom n vs).get m = t.get m := by
  induction vs with
  | nil => exact fun t _ _ _ => rfl
  | cons v vs ih =>
    intro t n m hm
    rw [List.length_cons] at hm
    rw [Track.writeFrom, ih _ (by omega), Track.get_write_of_ne t (by omega)]

/-- The k-th sample is added at the start index plus k. -/
theorem Track.get_writeFrom_add (vs : List Sample) : ∀ (t : Track) (n : Nat) {k : Nat} (hk : k < vs.length),
    (t.writeFrom n vs).get (n + k) = wrap16 (signed (t.get (n + k)) + signed vs[k]) := by
  induction vs with
  | nil => exact fun t n k hk => absurd hk (Nat.not_lt_zero k)
  | cons v vs ih =>
    intro t n k hk
    cases k with
    | zero => exact (Track.get_writeFrom_of_lt vs _ (Nat.lt_succ_self n)).trans (t.get_write_self n _)
    | succ k =>
      have hindex : n + (k + 1) = n + 1 + k := by omega
      rw [Track.writeFrom, hindex, ih _ _ (Nat.lt_of_succ_lt_succ hk), Track.get_write_of_ne t (by omega)]
      rfl

/-! ## Recordings (20_memory.md R76) -/

/-- The cursor after one sample is at the next flat position. -/
@[simp] theorem Cursor.flatPosition_succ (c : Cursor) : c.succ.flatPosition = c.flatPosition + 1 :=
  Cursor.flatPosition_fromIndex _

/-- A list of samples is recorded by writing each of them. -/
theorem recordLoop_list (mode : QRound) (xs : List SourceSample) : ∀ (c : Cursor) (t : Track),
    Track.recordLoop mode listDone listNext (xs.length + 1) c t xs =
      some (t.writeFrom c.flatPosition (xs.map fun x => wrap16 (x.convert mode)), []) := by
  induction xs with
  | nil => exact fun c t => recordLoop_done rfl ..
  | cons x xs ih =>
    intro c t
    rw [List.length_cons, recordLoop_next (s' := x :: xs) (s'' := xs) rfl rfl, ih, Cursor.flatPosition_succ,
      List.map_cons, Track.writeFrom, Track.write_signed_wrap16]

/-- What a command of a round gives a recording: its sample, as an integer (20_memory.md R76). -/
theorem nextFromBlock_oscillator {c : Instr} {s : State} (hc : c.isOscillator = true) (hs : s.count ≠ 0) :
    nextFromBlock c (s.respond s.statusWord) =
      some (.quantized (signed (oscSample s.qround c s.phase s.duty)), s.afterRound c) := by
  simp [nextFromBlock, issue_oscillator hc hs, State.afterRound]

/-- A recording of the block makes the rounds of the polling loop and writes what they emit. -/
theorem recordLoop_of_drains {c : Instr} {s u : State} {vs : List Sample} (hc : c.isOscillator = true)
    (h : Drains c s vs u) (mode : QRound) : ∀ (cur : Cursor) (t : Track),
    Track.recordLoop mode pollDone (nextFromBlock c) (vs.length + 1) cur t s =
      some (t.writeFrom cur.flatPosition vs, u) := by
  induction h with
  | @done s hs =>
    have hdone : s.done = true := beq_iff_eq.2 hs
    exact fun cur t => recordLoop_done (by rw [pollDone_eq, hdone]) ..
  | @round s u vs hs _ ih =>
    intro cur t
    have hdone : s.done = false := beq_eq_false_iff_ne.2 hs
    rw [List.length_cons, recordLoop_next (by rw [pollDone_eq, hdone]) (nextFromBlock_oscillator hc hs), ih,
      Cursor.flatPosition_succ, Track.writeFrom]
    rfl

/-- A recording from an accepted start time is the loop from its cursor. -/
theorem Track.record_of_ok {start fs : Rat} {cur : Cursor} (h : Cursor.fromTime start fs = .ok cur) {σ : Type}
    (t : Track) (mode : QRound) (done : σ → Option (Bool × σ)) (next : σ → Option (SourceSample × σ)) (polls : Nat)
    (source : σ) :
    t.record mode start fs done next polls source = .ok (Track.recordLoop mode done next polls cur t source) := by
  rw [Track.record, h]

/-- A recording from a rejected start time answers the error and writes nothing (20_memory.md R77). -/
theorem Track.record_of_error {start fs : Rat} {e : StoreError} (h : Cursor.fromTime start fs = .error e) {σ : Type}
    (t : Track) (mode : QRound) (done : σ → Option (Bool × σ)) (next : σ → Option (SourceSample × σ)) (polls : Nat)
    (source : σ) : t.record mode start fs done next polls source = .error e := by
  rw [Track.record, h]

/-! ## The container file (20_memory.md R78, R79) -/

/-- A byte of the word of a number is a byte of the number. -/
theorem extractLsb'_ofNat_byte {w start : Nat} (h : start + 8 ≤ w) (n : Nat) :
    (BitVec.ofNat w n).extractLsb' start 8 = BitVec.ofNat 8 (n / 2 ^ start) := by
  apply BitVec.eq_of_getLsbD_eq
  intro j hj
  rw [BitVec.getLsbD_extractLsb', BitVec.getLsbD_ofNat, BitVec.getLsbD_ofNat, Nat.testBit_div_two_pow]
  simp [hj, show start + j < w by omega, Nat.add_comm]

/-- The low four bytes of a number are those of its 32-bit word. -/
theorem littleEndian_four (n : Nat) : littleEndian 4 n = bytesOfWord (BitVec.ofNat 32 n) := by
  simp [littleEndian, bytesOfWord, extractLsb'_ofNat_byte, Nat.div_div_eq_div_mul]

/-- The low two bytes of a sample's number are the sample's. -/
theorem littleEndian_two_sample (v : Sample) :
    littleEndian 2 v.toNat = [v.extractLsb' 0 8, v.extractLsb' 8 8] := by
  have hbyte (start : Nat) (h : start + 8 ≤ 16) : v.extractLsb' start 8 = BitVec.ofNat 8 (v.toNat / 2 ^ start) := by
    rw [← extractLsb'_ofNat_byte h, BitVec.ofNat_toNat, BitVec.setWidth_eq]
  rw [hbyte 0 (by decide), hbyte 8 (by decide)]
  simp [littleEndian]

/-- The fields of the header by rising address (20_memory.md R79). -/
theorem wavHeader_eq (rate total : Nat) :
    wavHeader rate total =
      [0x52, 0x49, 0x46, 0x46] ++ bytesOfWord (BitVec.ofNat 32 (total + 36)) ++
        [0x57, 0x41, 0x56, 0x45, 0x66, 0x6D, 0x74, 0x20] ++ [16, 0, 0, 0, 1, 0, 1, 0] ++
        bytesOfWord (BitVec.ofNat 32 rate) ++ bytesOfWord (BitVec.ofNat 32 (2 * rate)) ++ [2, 0, 16, 0] ++
        [0x64, 0x61, 0x74, 0x61] ++ bytesOfWord (BitVec.ofNat 32 total) := by
  have hrate : rate * bytesPerSample * 1 = 2 * rate := by rw [Nat.mul_one, Nat.mul_comm]
  rw [wavHeader, hrate, ← littleEndian_four, ← littleEndian_four, ← littleEndian_four, ← littleEndian_four]
  rfl

/-- The header has 44 bytes. -/
@[simp] theorem length_wavHeader (rate total : Nat) : (wavHeader rate total).length = 44 := by
  rw [wavHeader_eq]
  rfl

/-- The bytes of the samples, two each. -/
@[simp] theorem length_sampleBytes (vs : List Sample) :
    (vs.flatMap fun v => littleEndian 2 v.toNat).length = 2 * vs.length := by
  simp [littleEndian, Nat.mul_comm]

/-- The two bytes of the k-th sample stand behind those of the k samples before it. -/
theorem take_drop_sampleBytes (vs : List Sample) : ∀ {k : Nat} (hk : k < vs.length),
    ((vs.flatMap fun v => littleEndian 2 v.toNat).drop (2 * k)).take 2 = littleEndian 2 vs[k].toNat := by
  induction vs with
  | nil => exact fun hk => absurd hk (Nat.not_lt_zero _)
  | cons v vs ih =>
    intro k hk
    cases k with
    | zero => rfl
    | succ k => exact ih (Nat.lt_of_succ_lt_succ hk)

/-- A Track of whole blocks has two bytes for each stored sample (20_memory.md R78). -/
theorem Track.byteLength_eq {t : Track} (h : t.wf = true) : t.byteLength = 2 * t.samples.length := by
  rw [Track.wf_iff] at h
  simp only [Track.byteLength, Track.blockCount, Config.blockSize, bytesPerSample]
  omega

end Sys2Proof.Machine
end

section
/-! PROOFS. The statements about the sample store: growth, writes, recordings and the container file (20_memory.md R71,
R74 to R79). -/

namespace Sys2Proof.Machine

/-- Settles O57: a read and a write are as long as the growth they make. -/
theorem trackGrowsByWholeBlocks : Obligations.TrackGrowsByWholeBlocks := by
  refine ⟨fun k => ⟨?_, ?_, fun delta => ?_⟩, fun t k delta ht => ?_⟩
  · exact ((Track.empty.blocks_of_length_eq_grow rfl rfl).2).trans (Nat.zero_max _)
  · rw [Track.read_fst, Track.get_empty]
    rfl
  · exact ((Track.blocks_of_length_eq_grow rfl (Track.empty.length_write k delta)).2).trans (Nat.zero_max _)
  · obtain ⟨hreadWf, hreadBlocks⟩ := Track.blocks_of_length_eq_grow (u := (t.read k).2) ht rfl
    obtain ⟨hwriteWf, hwriteBlocks⟩ := Track.blocks_of_length_eq_grow ht (t.length_write k delta)
    exact ⟨hreadWf, hwriteWf, hreadBlocks, hwriteBlocks⟩

/-- Settles O58, from the sample at the index written and at any other. -/
theorem trackWriteAddsAndWraps : Obligations.TrackWriteAddsAndWraps := by
  refine ⟨fun t n d => ?_, fun t n m d hm => ?_, fun n d1 d2 => ?_⟩
  · rw [Track.read_fst, Track.read_fst, Track.get_write_self, signed_wrap16]
  · rw [Track.read_fst, Track.read_fst, Track.get_write_of_ne t hm]
  · have hzero : signed (0 : Sample) = 0 := rfl
    rw [Track.read_fst, Track.get_write_self, Track.get_write_self, signed_wrap16, signed_wrap16, Track.get_empty,
      hzero, Int.zero_add, Int.bmod_add_bmod]

/-- Settles O59: the writes of a list stand at consecutive indices, and each recording loop makes such writes. -/
theorem recordingPlacesEachSample : Obligations.RecordingPlacesEachSample := by
  have hzero : signed (0 : Sample) = 0 := rfl
  refine ⟨fun n samples => ⟨fun k hk => ?_, fun m hm => ?_⟩, fun t mode start fs cur xs hcur => ?_,
    fun mode a k => wrap16_signed _, fun _ _ => rfl, fun t start fs cur c s hcur hc => ?_,
    fun t start fs c polls s e he => Track.record_of_error he ..⟩
  · rw [Track.read_fst, Track.get_writeFrom_add samples _ n hk, Track.get_empty, hzero, Int.zero_add, wrap16_signed]
  · have hempty : (Track.empty.writeFrom n samples).get m = 0 :=
      hm.elim (Track.get_writeFrom_of_lt samples _) (Track.get_writeFrom_of_ge samples _)
    rw [Track.read_fst, hempty, hzero]
  · rw [Track.record_of_ok hcur, recordLoop_list]
  · obtain ⟨vs, u, hdrains⟩ := exists_drains c s
    have hdrop : u.out.drop s.out.length = vs := by rw [hdrains.out_eq, List.drop_left]
    rw [← hdrains.length_eq]
    refine ⟨u, hdrains.untilDoneHost_eq hc, by rw [hdrop], ?_⟩
    rw [recordBlock, Track.record_of_ok hcur, recordLoop_of_drains hc hdrains, hdrop]

/-- Settles O60: the file is the fields of the header in their order, and then two bytes for each sample. -/
theorem containerFileLayout : Obligations.ContainerFileLayout := by
  intro t rate ht
  have hfile : t.serialize rate =
      wavHeader rate t.byteLength ++ t.samples.flatMap fun v => littleEndian 2 v.toNat := rfl
  have hlength : (t.serialize rate).length = 44 + t.byteLength := by
    rw [hfile, List.length_append, length_wavHeader, length_sampleBytes, Track.byteLength_eq ht]
  have hsample (k : Nat) (hk : k < t.samples.length) : ((t.serialize rate).drop (44 + 2 * k)).take 2 =
      [(t.samples[k]).extractLsb' 0 8, (t.samples[k]).extractLsb' 8 8] := by
    rw [hfile, ← List.drop_drop, List.drop_left' (length_wavHeader ..), take_drop_sampleBytes _ hk,
      littleEndian_two_sample]
  refine ⟨hlength, Track.byteLength_eq ht, ?_, ?_, ?_, ?_, ?_, ?_, ?_, ?_, ?_, hsample⟩
  all_goals
    rw [hfile, wavHeader_eq]
    rfl

end Sys2Proof.Machine
end
